-- ==== Sys2Proof/Word.lean ====
section
/-! DEFINITION. The word types of the core and the bank of six 32-bit port registers (spec/00_scope.md R14,
spec/10_state.md R32). -/

namespace Sys2Proof

/-- An 8-bit value: an opcode, a status code, a subindex, a mode or unit code. -/
abbrev Byte := BitVec 8
/-- A 16-bit value: a control or status word, an object index. -/
abbrev HalfWord := BitVec 16
/-- A 32-bit value: an operand, result or parameter register. -/
abbrev Word := BitVec 32
/-- The `i64` that `readInteger` returns (R16, R73). -/
abbrev DWord := BitVec 64

/-- Six 32-bit registers numbered 0 to 5: `ARG[0..5]` and `RES[0..5]` (R32). -/
structure Bank where
  r0 : Word
  r1 : Word
  r2 : Word
  r3 : Word
  r4 : Word
  r5 : Word
  deriving DecidableEq, Repr

def Bank.zero : Bank := ⟨0, 0, 0, 0, 0, 0⟩

def Bank.get (b : Bank) : Fin 6 → Word
  | 0 => b.r0
  | 1 => b.r1
  | 2 => b.r2
  | 3 => b.r3
  | 4 => b.r4
  | 5 => b.r5

def Bank.set (b : Bank) (k : Fin 6) (x : Word) : Bank :=
  match k with
  | 0 => { b with r0 := x }
  | 1 => { b with r1 := x }
  | 2 => { b with r2 := x }
  | 3 => { b with r3 := x }
  | 4 => { b with r4 := x }
  | 5 => { b with r5 := x }

end Sys2Proof
end

