-- ==== Sys2Proof/Config.lean ====
section
/-! DEFINITION. What is fixed for a core instance: the closed enumerations of the spec and the implementation
parameters of spec/00_scope.md R10. "The model takes the parameters below as arguments": they are one record,
`Params`, which State carries and no step changes. Their default values are in Machine/Defaults.lean. -/

namespace Sys2Proof

/-- The 8 power states (spec/30_encoding.md R108, in the source's order). -/
inductive PowerState where
  | notReadyToSwitchOn
  | switchedOnDisabled
  | readyToSwitchOn
  | switchedOn
  | operationEnabled
  | quickStopActive
  | faultReactionActive
  | fault
  deriving DecidableEq, Repr

/-- The 6 homing states (R109). -/
inductive HomingState where
  | inProgress
  | incomplete
  | unachieved
  | completed
  | errorStillMoving
  | errorHalt
  deriving DecidableEq, Repr

/-- The protocol errors (spec/60_exceptions.md R351), the spec's three additions among them (R350). -/
inductive ProtocolError where
  | illegalCommand
  | notReadyToSwitchOn
  | unknownState
  | couldNotDisable
  | quickStopFailed
  | faultNotCleared
  | couldNotEnable
  | saveTimeout
  | autoSetupTimeout
  | preconditionFailed
  | invalidHaltMode
  | invalidHomingSpeedOrder
  | unknownDriveMode
  | unknownHomingState
  deriving DecidableEq, Repr

/-- Access widths in bits: 8, 16 or 32 (R16). -/
inductive Width where
  | w8
  | w16
  | w32
  deriving DecidableEq, Repr

/-- An object-dictionary address `od(i, s)` (R15, R70). -/
structure OdAddr where
  index : HalfWord
  sub : Byte
  deriving DecidableEq, Repr

/-- A register parameter: "(index:16, subindex:8, width, signedness)" (R10). -/
structure RegParam where
  addr : OdAddr
  width : Width
  signed : Bool
  deriving DecidableEq, Repr

/-- One (mask, value) status template (R112). -/
structure Template where
  mask : HalfWord
  value : HalfWord
  deriving DecidableEq, Repr

/-- `STATE_TEMPLATES`: one template for each power state (R112). -/
structure StateTemplates where
  notReadyToSwitchOn : Template
  switchedOnDisabled : Template
  readyToSwitchOn : Template
  switchedOn : Template
  operationEnabled : Template
  quickStopActive : Template
  faultReactionActive : Template
  fault : Template
  deriving DecidableEq, Repr

/-- `DRIVE_MODE_TAGS`: the tags of the four DriveMode values (R115). -/
structure DriveModeTags where
  stepperOpenLoopNoReduction : Byte
  stepperClosedLoop : Byte
  stepperOpenLoopWithReduction : Byte
  bldc : Byte
  deriving DecidableEq, Repr

/-- `AUTOSETUP_PRECOND_SENSE` (spec/46_auto_setup.md R330, decision D24). -/
inductive PrecondSense where
  | failWhenAllSet
  | failUnlessAllSet
  deriving DecidableEq, Repr

/-- The implementation parameters of R10, in the table's order. `enableStallResult` is `none` for a successful
result and `some e` for `raise e` (R175). `paramWidth` is the width of the save registers, and the default of
every parameter register the table gives no width of its own. -/
structure Params where
  odCw : RegParam
  odSw : RegParam
  odMode : RegParam
  odDriveMode : RegParam
  odPolePairs : RegParam
  odRatedCurrent : RegParam
  odMaxCurrent : RegParam
  odMaxCurrentDuration : RegParam
  odIdleCurrent : RegParam
  odSaveIndex : HalfWord
  odFeedNum : RegParam
  odFeedDen : RegParam
  odPosActual : RegParam
  odSpeedActual : RegParam
  odVelActual : RegParam
  odVelDemand : RegParam
  odHaltOption : RegParam
  haltOptSlowdown : Word
  odLswOption : RegParam
  lswOptRecordOnly : Word
  lswOptQsSod : Word
  odHomingMethod : RegParam
  odHomingSpeedSwitch : RegParam
  odHomingSpeedZero : RegParam
  odHomingAccel : RegParam
  odTargetPosition : RegParam
  odProfileVelocity : RegParam
  odProfileAccel : RegParam
  odPosUnits : RegParam
  odVelUnits : RegParam
  odTargetVelocity : RegParam
  odVelAccDs : RegParam
  odVelAccDt : RegParam
  odVelDecDs : RegParam
  odVelDecDt : RegParam
  paramWidth : Width
  stateTemplates : StateTemplates
  remoteBit : Fin 16
  qsBit : Fin 16
  rtsoBit : Fin 16
  autoSetupPrecondSense : PrecondSense
  enableStallResult : Option ProtocolError
  faultResetRetries : Nat
  saveSignature : Word
  savePollMs : Nat
  savePollMax : Nat
  autoSetupPollMs : Nat
  autoSetupPollMax : Nat
  homeDefaultZero : Word
  homeDefaultSwitch : Word
  homeMethod : Word
  driveModeTags : DriveModeTags
  deriving DecidableEq, Repr

end Sys2Proof
end

