-- ==== Sys2Proof/Syntax.lean ====
section
/-! DEFINITION. The commands and control-word micro-ops of the core: one constructor of `Instr` per row of
spec/opcode_table.json, in the table's order. Signed operands are integers, the other operands bit vectors of
their field's width (spec/30_encoding.md R103, R104). -/

namespace Sys2Proof

/-- The control-word micro-ops as the sequencer names them (R102). -/
inductive CwOp where
  | shutdown
  | switchOn
  | enableOperation
  | disableOperation
  | disableVoltage
  | quickStop
  | qsRecover1
  | faultResetLow
  | faultResetHigh
  | startSet
  | startClear
  | haltSet
  | haltClear
  | ppTargetAbs
  | ppTargetRel
  | ppStart
  | clearAll
  deriving DecidableEq, Repr

/-- The instructions: 42 host commands (R101) and 17 control-word micro-ops (R102). -/
inductive Instr where
  | currentState
  | enableOperation
  | disableOperation
  | shutdown
  | quickStop
  | setModeOfOperation (mode : Int)
  | getModeOfOperation
  | setMotorParameters (polePairCount ratedCurrent maxCurrent maxCurrentDuration idleCurrent : Word)
      (driveMode : Byte)
  | getMotorParameters
  | saveGroup (groupId : Byte)
  | setUserUnitsFeed (feedNumerator shaftRevolutions : Word)
  | getPositionActual
  | getSpeedActual
  | getVelocityActual
  | getVelocityDemanded
  | halt
  | bindHoming
  | bindProfilePosition
  | bindVelocity
  | bindAutoSetup
  | unbind
  | setHomingSpeed (speedToZero speedToSwitch : Word)
  | setHomingMode (method : Int)
  | setHomingAcceleration (acc : Word)
  | startHoming
  | home (speedToZero speedToSwitch : Word)
  | getHomingState
  | setTargetPosition (value : Int) (rel : Bool)
  | setProfileVelocity (speed : Word)
  | setProfileAcceleration (acc : Word)
  | startPositioning
  | setUserUnitsPositioning (unit exponent : Byte)
  | getUserUnitsPositioning
  | setTargetVelocity (vel : Int)
  | setVelocityAcceleration (deltaSpeed deltaTime : Word)
  | getVelocityAcceleration
  | setVelocityDeceleration (deltaSpeed deltaTime : Word)
  | getVelocityDeceleration
  | startVelocity
  | setUserUnitsVelocity (unit exponent timebase : Byte)
  | getUserUnitsVelocity
  | autoSetupMotorParameters
  | cwShutdown
  | cwSwitchOn
  | cwEnableOperation
  | cwDisableOperation
  | cwDisableVoltage
  | cwQuickStop
  | cwQsRecover1
  | cwFaultResetLow
  | cwFaultResetHigh
  | cwStartSet
  | cwStartClear
  | cwHaltSet
  | cwHaltClear
  | cwPpTargetAbs
  | cwPpTargetRel
  | cwPpStart
  | cwClearAll
  deriving DecidableEq, Repr

/-- The instruction that a micro-op of the sequencer is. -/
def CwOp.instr : CwOp → Instr
  | .shutdown => .cwShutdown
  | .switchOn => .cwSwitchOn
  | .enableOperation => .cwEnableOperation
  | .disableOperation => .cwDisableOperation
  | .disableVoltage => .cwDisableVoltage
  | .quickStop => .cwQuickStop
  | .qsRecover1 => .cwQsRecover1
  | .faultResetLow => .cwFaultResetLow
  | .faultResetHigh => .cwFaultResetHigh
  | .startSet => .cwStartSet
  | .startClear => .cwStartClear
  | .haltSet => .cwHaltSet
  | .haltClear => .cwHaltClear
  | .ppTargetAbs => .cwPpTargetAbs
  | .ppTargetRel => .cwPpTargetRel
  | .ppStart => .cwPpStart
  | .clearAll => .cwClearAll

end Sys2Proof
end

