-- ==== Sys2Proof/WellFormed.lean ====
section
/-! DEFINITION. When an instruction term stands for an encodable instruction: each signed operand fits its field
(spec/30_encoding.md R104). Every other operand is a bit vector of its field's width, so it always fits; no command
checks a value otherwise at decode time (R116, R120). -/

namespace Sys2Proof

/-- `v` fits a signed field of `w` bits (`sext_w`, R103). -/
abbrev FitsSigned (w : Nat) (v : Int) : Prop := -(2 ^ (w - 1) : Int) ≤ v ∧ v < (2 ^ (w - 1) : Int)

/-- The check that an instruction's operands fit their fields. -/
def Instr.fits : Instr → Bool
  | .setModeOfOperation mode => decide (FitsSigned 8 mode)
  | .setHomingMode method => decide (FitsSigned 32 method)
  | .setTargetPosition value _ => decide (FitsSigned 32 value)
  | .setTargetVelocity vel => decide (FitsSigned 32 vel)
  | .currentState | .enableOperation | .disableOperation | .shutdown | .quickStop => true
  | .getModeOfOperation | .setMotorParameters .. | .getMotorParameters | .saveGroup _ => true
  | .setUserUnitsFeed .. | .getPositionActual | .getSpeedActual | .getVelocityActual => true
  | .getVelocityDemanded | .halt | .bindHoming | .bindProfilePosition | .bindVelocity => true
  | .bindAutoSetup | .unbind | .setHomingSpeed .. | .setHomingAcceleration _ | .startHoming => true
  | .home .. | .getHomingState | .setProfileVelocity _ | .setProfileAcceleration _ => true
  | .startPositioning | .setUserUnitsPositioning .. | .getUserUnitsPositioning => true
  | .setVelocityAcceleration .. | .getVelocityAcceleration | .setVelocityDeceleration .. => true
  | .getVelocityDeceleration | .startVelocity | .setUserUnitsVelocity .. => true
  | .getUserUnitsVelocity | .autoSetupMotorParameters => true
  | .cwShutdown | .cwSwitchOn | .cwEnableOperation | .cwDisableOperation | .cwDisableVoltage => true
  | .cwQuickStop | .cwQsRecover1 | .cwFaultResetLow | .cwFaultResetHigh | .cwStartSet => true
  | .cwStartClear | .cwHaltSet | .cwHaltClear | .cwPpTargetAbs | .cwPpTargetRel => true
  | .cwPpStart | .cwClearAll => true

/-- The instruction's operands fit their fields. -/
abbrev Instr.WellFormed (i : Instr) : Prop := i.fits = true

end Sys2Proof
end

