-- ==== Sys2Proof/Decode.lean ====
section
/-! DEFINITION. The command frame, the decoder and the encoder (spec/30_encoding.md R100 to R104, R120). A command
is one 200-bit frame; a control-word micro-op is the pair (mask, match) of R102's table. The decoder is total and
rejects by name. -/

namespace Sys2Proof

/-- A command frame: the opcode and the six operand registers (R100). -/
structure Frame where
  opc : Byte
  arg : Bank
  deriving DecidableEq, Repr

/-- What an encoding of the block is: a host command's frame, or the mask and match columns of a micro-op row. -/
inductive Code where
  | command (f : Frame)
  | microOp (mask mtch : HalfWord)
  deriving DecidableEq, Repr

/-- Why a code decodes to nothing (R120). -/
inductive DecodeError where
  /-- The opcode is not listed in R101. -/
  | unassignedOpcode (opc : Byte)
  /-- No row of R102 has this mask and match. -/
  | noSuchMicroOp (mask mtch : HalfWord)
  deriving DecidableEq, Repr

/-! ## Operand slices (R103) -/

/-- An unsigned or raw 8-bit field `ARG[k][7:0]`. -/
def argByte (x : Word) : Byte := x.setWidth 8

/-- A signed 8-bit field: `sext_8(ARG[k][7:0])`. -/
def argSigned8 (x : Word) : Int := (x.setWidth 8).toInt

/-- A signed 32-bit field: `sext_32(ARG[k][31:0])`. -/
def argSigned32 (x : Word) : Int := x.toInt

/-- A 1-bit flag: `ARG[k][0]`. -/
def argFlag (x : Word) : Bool := x.getLsbD 0

/-! ## Commands (R101, R104) -/

/-- The command a frame holds, or the error that its opcode is not assigned. -/
def decodeFrame (f : Frame) : Except DecodeError Instr :=
  match f.opc.toNat with
  | 0x10 => .ok .currentState
  | 0x11 => .ok .enableOperation
  | 0x12 => .ok .disableOperation
  | 0x13 => .ok .shutdown
  | 0x14 => .ok .quickStop
  | 0x20 => .ok (.setModeOfOperation (argSigned8 f.arg.r0))
  | 0x21 => .ok .getModeOfOperation
  | 0x22 => .ok (.setMotorParameters f.arg.r0 f.arg.r1 f.arg.r2 f.arg.r3 f.arg.r4 (argByte f.arg.r5))
  | 0x23 => .ok .getMotorParameters
  | 0x24 => .ok (.saveGroup (argByte f.arg.r0))
  | 0x25 => .ok (.setUserUnitsFeed f.arg.r0 f.arg.r1)
  | 0x26 => .ok .getPositionActual
  | 0x27 => .ok .getSpeedActual
  | 0x28 => .ok .getVelocityActual
  | 0x29 => .ok .getVelocityDemanded
  | 0x2A => .ok .halt
  | 0x30 => .ok .bindHoming
  | 0x31 => .ok .bindProfilePosition
  | 0x32 => .ok .bindVelocity
  | 0x33 => .ok .bindAutoSetup
  | 0x34 => .ok .unbind
  | 0x40 => .ok (.setHomingSpeed f.arg.r0 f.arg.r1)
  | 0x41 => .ok (.setHomingMode (argSigned32 f.arg.r0))
  | 0x42 => .ok (.setHomingAcceleration f.arg.r0)
  | 0x43 => .ok .startHoming
  | 0x44 => .ok (.home f.arg.r0 f.arg.r1)
  | 0x45 => .ok .getHomingState
  | 0x50 => .ok (.setTargetPosition (argSigned32 f.arg.r0) (argFlag f.arg.r1))
  | 0x51 => .ok (.setProfileVelocity f.arg.r0)
  | 0x52 => .ok (.setProfileAcceleration f.arg.r0)
  | 0x53 => .ok .startPositioning
  | 0x54 => .ok (.setUserUnitsPositioning (argByte f.arg.r0) (argByte f.arg.r1))
  | 0x55 => .ok .getUserUnitsPositioning
  | 0x60 => .ok (.setTargetVelocity (argSigned32 f.arg.r0))
  | 0x61 => .ok (.setVelocityAcceleration f.arg.r0 f.arg.r1)
  | 0x62 => .ok .getVelocityAcceleration
  | 0x63 => .ok (.setVelocityDeceleration f.arg.r0 f.arg.r1)
  | 0x64 => .ok .getVelocityDeceleration
  | 0x65 => .ok .startVelocity
  | 0x66 => .ok (.setUserUnitsVelocity (argByte f.arg.r0) (argByte f.arg.r1) (argByte f.arg.r2))
  | 0x67 => .ok .getUserUnitsVelocity
  | 0x70 => .ok .autoSetupMotorParameters
  | _ => .error (.unassignedOpcode f.opc)

/-! ## Control-word micro-ops (R102) -/

/-- The "mask" column of R102. -/
def CwOp.mask : CwOp → HalfWord
  | .shutdown => 0x0087
  | .switchOn => 0x008F
  | .enableOperation => 0x008F
  | .disableOperation => 0x008F
  | .disableVoltage => 0x0082
  | .quickStop => 0x0086
  | .qsRecover1 => 0x0004
  | .faultResetLow => 0x0080
  | .faultResetHigh => 0x0080
  | .startSet => 0x0010
  | .startClear => 0x0010
  | .haltSet => 0x0100
  | .haltClear => 0x0100
  | .ppTargetAbs => 0x0050
  | .ppTargetRel => 0x0050
  | .ppStart => 0x0130
  | .clearAll => 0xFFFF

/-- The "match" column of R102. -/
def CwOp.mtch : CwOp → HalfWord
  | .shutdown => 0x0006
  | .switchOn => 0x0007
  | .enableOperation => 0x000F
  | .disableOperation => 0x0007
  | .disableVoltage => 0x0000
  | .quickStop => 0x0002
  | .qsRecover1 => 0x0000
  | .faultResetLow => 0x0000
  | .faultResetHigh => 0x0080
  | .startSet => 0x0010
  | .startClear => 0x0000
  | .haltSet => 0x0100
  | .haltClear => 0x0000
  | .ppTargetAbs => 0x0000
  | .ppTargetRel => 0x0040
  | .ppStart => 0x0030
  | .clearAll => 0x0000

/-- The micro-ops in the table's order. `CW_DISABLE_OPERATION` stands after `CW_SWITCH_ON`, whose pattern it
shares "bit for bit" (spec/40_codec.md R146). -/
def CwOp.all : List CwOp :=
  [.shutdown, .switchOn, .enableOperation, .disableOperation, .disableVoltage, .quickStop, .qsRecover1,
    .faultResetLow, .faultResetHigh, .startSet, .startClear, .haltSet, .haltClear, .ppTargetAbs, .ppTargetRel,
    .ppStart, .clearAll]

/-- The first micro-op of the table with this mask and match. -/
def decodeMicroOp (mask mtch : HalfWord) : Except DecodeError CwOp :=
  match CwOp.all.find? (fun op => op.mask == mask && op.mtch == mtch) with
  | some op => .ok op
  | none => .error (.noSuchMicroOp mask mtch)

/-- The decoder of the block. -/
def decode : Code → Except DecodeError Instr
  | .command f => decodeFrame f
  | .microOp mask mtch =>
    match decodeMicroOp mask mtch with
    | .ok op => .ok op.instr
    | .error e => .error e

/-! ## The encoder -/

/-- A frame whose operand registers from the `k`-th on are 0 ("the host should write them as 0", R120). -/
def frame (opc : Byte) (a0 a1 a2 a3 a4 a5 : Word := 0) : Code := .command ⟨opc, ⟨a0, a1, a2, a3, a4, a5⟩⟩

/-- A micro-op's row of R102. -/
def CwOp.code (op : CwOp) : Code := .microOp op.mask op.mtch

/-- The code of an instruction, from the tables of R101, R102 and R104. -/
def encode : Instr → Code
  | .currentState => frame 0x10
  | .enableOperation => frame 0x11
  | .disableOperation => frame 0x12
  | .shutdown => frame 0x13
  | .quickStop => frame 0x14
  | .setModeOfOperation mode => frame 0x20 ((BitVec.ofInt 8 mode).setWidth 32)
  | .getModeOfOperation => frame 0x21
  | .setMotorParameters pp rc mc mcd ic dm => frame 0x22 pp rc mc mcd ic (dm.setWidth 32)
  | .getMotorParameters => frame 0x23
  | .saveGroup g => frame 0x24 (g.setWidth 32)
  | .setUserUnitsFeed num den => frame 0x25 num den
  | .getPositionActual => frame 0x26
  | .getSpeedActual => frame 0x27
  | .getVelocityActual => frame 0x28
  | .getVelocityDemanded => frame 0x29
  | .halt => frame 0x2A
  | .bindHoming => frame 0x30
  | .bindProfilePosition => frame 0x31
  | .bindVelocity => frame 0x32
  | .bindAutoSetup => frame 0x33
  | .unbind => frame 0x34
  | .setHomingSpeed z sw => frame 0x40 z sw
  | .setHomingMode method => frame 0x41 (BitVec.ofInt 32 method)
  | .setHomingAcceleration acc => frame 0x42 acc
  | .startHoming => frame 0x43
  | .home z sw => frame 0x44 z sw
  | .getHomingState => frame 0x45
  | .setTargetPosition value rel => frame 0x50 (BitVec.ofInt 32 value) ((BitVec.ofBool rel).setWidth 32)
  | .setProfileVelocity speed => frame 0x51 speed
  | .setProfileAcceleration acc => frame 0x52 acc
  | .startPositioning => frame 0x53
  | .setUserUnitsPositioning unit exp => frame 0x54 (unit.setWidth 32) (exp.setWidth 32)
  | .getUserUnitsPositioning => frame 0x55
  | .setTargetVelocity vel => frame 0x60 (BitVec.ofInt 32 vel)
  | .setVelocityAcceleration ds dt => frame 0x61 ds dt
  | .getVelocityAcceleration => frame 0x62
  | .setVelocityDeceleration ds dt => frame 0x63 ds dt
  | .getVelocityDeceleration => frame 0x64
  | .startVelocity => frame 0x65
  | .setUserUnitsVelocity unit exp tb => frame 0x66 (unit.setWidth 32) (exp.setWidth 32) (tb.setWidth 32)
  | .getUserUnitsVelocity => frame 0x67
  | .autoSetupMotorParameters => frame 0x70
  | .cwShutdown => CwOp.code .shutdown
  | .cwSwitchOn => CwOp.code .switchOn
  | .cwEnableOperation => CwOp.code .enableOperation
  | .cwDisableOperation => CwOp.code .disableOperation
  | .cwDisableVoltage => CwOp.code .disableVoltage
  | .cwQuickStop => CwOp.code .quickStop
  | .cwQsRecover1 => CwOp.code .qsRecover1
  | .cwFaultResetLow => CwOp.code .faultResetLow
  | .cwFaultResetHigh => CwOp.code .faultResetHigh
  | .cwStartSet => CwOp.code .startSet
  | .cwStartClear => CwOp.code .startClear
  | .cwHaltSet => CwOp.code .haltSet
  | .cwHaltClear => CwOp.code .haltClear
  | .cwPpTargetAbs => CwOp.code .ppTargetAbs
  | .cwPpTargetRel => CwOp.code .ppTargetRel
  | .cwPpStart => CwOp.code .ppStart
  | .cwClearAll => CwOp.code .clearAll

/-- The instruction that decoding the code of `i` gives: `i` itself, but for `CW_DISABLE_OPERATION`, "bit for bit
the same micro-op as `CW_SWITCH_ON`" (spec/40_codec.md R146). -/
def Instr.decoded : Instr → Instr
  | .cwDisableOperation => .cwSwitchOn
  | i => i

/-! ## The words of spec/opcode_table.json

The table numbers a row's bits from bit 0 of its first word. A command row gives the 8 opcode bits; a frame is read
with `OPC` in bits 7:0 and `ARG[k]` in the 32 bits from bit 8 + 32k on. A micro-op row gives the bits of the control
word it WRITES, which the core never fetches and which several rows share; such a word is read as the first row, in
the order of `CwOp.bySetBits`, whose match it meets (DESIGN CHOICE, log entry 13). -/

/-- The frame whose 200 bits are the number `w`. -/
def frameOfNat (w : Nat) : Frame :=
  { opc := BitVec.ofNat 8 w
    arg :=
      { r0 := BitVec.ofNat 32 (w >>> 8)
        r1 := BitVec.ofNat 32 (w >>> 40)
        r2 := BitVec.ofNat 32 (w >>> 72)
        r3 := BitVec.ofNat 32 (w >>> 104)
        r4 := BitVec.ofNat 32 (w >>> 136)
        r5 := BitVec.ofNat 32 (w >>> 168) } }

/-- The micro-ops, those that set more bits first, then those that fix more bits first. -/
def CwOp.bySetBits : List CwOp :=
  [.enableOperation, .switchOn, .disableOperation, .ppStart, .shutdown, .quickStop, .ppTargetRel, .faultResetHigh,
    .startSet, .haltSet, .clearAll, .disableVoltage, .ppTargetAbs, .qsRecover1, .faultResetLow, .startClear,
    .haltClear]

/-- The micro-op a 16-bit control word is read as. -/
def cwOpOfWord (w : HalfWord) : Option CwOp :=
  CwOp.bySetBits.find? (fun op => w &&& op.mask == op.mtch)

/-- The micro-op whose fixed bits lie in the low byte and whose match is exactly the 8-bit value `w`. -/
def cwOpOfByte (w : Byte) : Option CwOp :=
  CwOp.bySetBits.find? (fun op => op.mask.toNat < 256 && op.mtch == w.setWidth 16)

/-- What a table word is: a command frame or a micro-op. -/
inductive TableWord where
  | frame (f : Frame)
  | microOp (op : CwOp)
  deriving DecidableEq, Repr

/-- How a word of `nbits` bits of the opcode table is read: 16 bits are a control word; else it is a command frame,
but for an 8-bit value that is no assigned opcode and is exactly the match of a micro-op row. -/
def readTableWord (nbits w : Nat) : TableWord :=
  let f := frameOfNat (w % 2 ^ nbits)
  if nbits = 16 then
    match cwOpOfWord (BitVec.ofNat 16 w) with
    | some op => .microOp op
    | none => .frame f
  else if nbits = 8 then
    match decodeFrame f, cwOpOfByte f.opc with
    | .error _, some op => .microOp op
    | _, _ => .frame f
  else .frame f

/-- The instruction the decoder reads from a word of spec/opcode_table.json. -/
def decodeTableWord (nbits w : Nat) : Option Instr :=
  match readTableWord nbits w with
  | .frame f => (decodeFrame f).toOption
  | .microOp op => some op.instr

end Sys2Proof
end

