-- ==== Sys2Proof/Machine/Defaults.lean ====
section
/-! DEFINITION. The values of the implementation parameters (spec/00_scope.md R10). Values the source states are
normative; values marked `[gk]` in R10 are the spec's defaults from general knowledge of CiA 402 and values marked
`[decision]` are the spec's own choices (PRESUMED, log entry 3). -/

namespace Sys2Proof.Machine

/-- An unsigned parameter register of `PARAM_WIDTH` = 32 bits (R10, R11, decision D18). -/
def unsignedReg (index : HalfWord) (sub : Byte) : RegParam := ⟨⟨index, sub⟩, .w32, false⟩

/-- A signed parameter register of `PARAM_WIDTH` = 32 bits (R10, R48, decision D43). -/
def signedReg (index : HalfWord) (sub : Byte) : RegParam := ⟨⟨index, sub⟩, .w32, true⟩

/-- The default `STATE_TEMPLATES` (spec/30_encoding.md R112, `[gk]`). -/
def defaultTemplates : StateTemplates :=
  { notReadyToSwitchOn := ⟨0x004F, 0x0000⟩
    switchedOnDisabled := ⟨0x004F, 0x0040⟩
    readyToSwitchOn := ⟨0x006F, 0x0021⟩
    switchedOn := ⟨0x006F, 0x0023⟩
    operationEnabled := ⟨0x006F, 0x0027⟩
    quickStopActive := ⟨0x006F, 0x0007⟩
    faultReactionActive := ⟨0x004F, 0x000F⟩
    fault := ⟨0x004F, 0x0008⟩ }

/-- The default `DRIVE_MODE_TAGS` (R115, `[decision]` D20). -/
def defaultDriveModeTags : DriveModeTags :=
  { stepperOpenLoopNoReduction := 0x00
    stepperClosedLoop := 0x01
    stepperOpenLoopWithReduction := 0x08
    bldc := 0x41 }

/-- The parameter values of R10. The four source addresses are 0x6040:00, 0x6041:00, 0x6060:00 and 0x3202:00
(spec/20_memory.md R79). Signedness is decision D43's: positions, velocities and the homing method are signed (also
spec/93_implementation_defined.md I21). -/
def defaultParams : Params :=
  { odCw := ⟨⟨0x6040, 0x00⟩, .w16, false⟩
    odSw := ⟨⟨0x6041, 0x00⟩, .w16, false⟩
    odMode := ⟨⟨0x6060, 0x00⟩, .w8, true⟩
    odDriveMode := unsignedReg 0x3202 0x00
    odPolePairs := unsignedReg 0x2030 0x00
    odRatedCurrent := unsignedReg 0x203B 0x01
    odMaxCurrent := unsignedReg 0x2031 0x00
    odMaxCurrentDuration := unsignedReg 0x203B 0x02
    odIdleCurrent := unsignedReg 0x2037 0x00
    odSaveIndex := 0x1010
    odFeedNum := unsignedReg 0x6092 0x01
    odFeedDen := unsignedReg 0x6092 0x02
    odPosActual := signedReg 0x6064 0x00
    odSpeedActual := signedReg 0x606C 0x00
    odVelActual := signedReg 0x6044 0x00
    odVelDemand := signedReg 0x6043 0x00
    odHaltOption := unsignedReg 0x605D 0x00
    haltOptSlowdown := 1
    odLswOption := signedReg 0x3701 0x00
    lswOptRecordOnly := 0xFFFFFFFF
    lswOptQsSod := 2
    odHomingMethod := signedReg 0x6098 0x00
    odHomingSpeedSwitch := unsignedReg 0x6099 0x01
    odHomingSpeedZero := unsignedReg 0x6099 0x02
    odHomingAccel := unsignedReg 0x609A 0x00
    odTargetPosition := signedReg 0x607A 0x00
    odProfileVelocity := unsignedReg 0x6081 0x00
    odProfileAccel := unsignedReg 0x6083 0x00
    odPosUnits := unsignedReg 0x60A8 0x00
    odVelUnits := unsignedReg 0x60A9 0x00
    odTargetVelocity := signedReg 0x6042 0x00
    odVelAccDs := unsignedReg 0x6048 0x01
    odVelAccDt := unsignedReg 0x6048 0x02
    odVelDecDs := unsignedReg 0x6049 0x01
    odVelDecDt := unsignedReg 0x6049 0x02
    paramWidth := .w32
    stateTemplates := defaultTemplates
    remoteBit := 9
    qsBit := 5
    rtsoBit := 0
    autoSetupPrecondSense := .failWhenAllSet
    enableStallResult := some .couldNotEnable
    faultResetRetries := 2
    saveSignature := 0x65766173
    savePollMs := 100
    savePollMax := 300
    autoSetupPollMs := 10
    autoSetupPollMax := 3000
    homeDefaultZero := 10
    homeDefaultSwitch := 50
    homeMethod := 17
    driveModeTags := defaultDriveModeTags }

end Sys2Proof.Machine
end

