-- ==== Sys2Proof/Machine/State.lean ====
section
/-! DEFINITION. The state of the machine, as plain data: the core's own state (spec/10_state.md R30 to R37), the
constants of an instance (R33, spec/00_scope.md R10), the event trace (R16), and the inputs of the other agents
(R12). -/

namespace Sys2Proof.Machine

/-- The binding register `CTRL`, 3 bits (R34). Codes 5 to 7 are "never held"; they are kept as data so that finding
one is a fault (spec/93_implementation_defined.md I15). -/
inductive Ctrl where
  | unbound
  | homing
  | profilePosition
  | velocity
  | autoSetup
  | neverHeld (k : Fin 3)
  deriving DecidableEq, Repr

/-- The handshake state `PORT` (R35). -/
inductive Port where
  | idle
  | busy
  deriving DecidableEq, Repr

/-- The drive registers the core can name (R39 to R48): the rows of R10 and the save registers. -/
inductive RegName where
  | cw
  | sw
  | mode
  | driveMode
  | polePairs
  | ratedCurrent
  | maxCurrent
  | maxCurrentDuration
  | idleCurrent
  | save (group : Byte)
  | feedNum
  | feedDen
  | posActual
  | speedActual
  | velActual
  | velDemand
  | haltOption
  | lswOption
  | homingMethod
  | homingSpeedSwitch
  | homingSpeedZero
  | homingAccel
  | targetPosition
  | profileVelocity
  | profileAccel
  | posUnits
  | velUnits
  | targetVelocity
  | velAccDs
  | velAccDt
  | velDecDs
  | velDecDt
  deriving DecidableEq, Repr

/-- The two uses of the polling arbiter (spec/40_codec.md R160). -/
inductive Poll where
  | save (group : Byte)
  | autoSetup
  deriving DecidableEq, Repr

/-- An action of a command's text: one `MemRead`, one `MemWrite` or one `Wait` (R36). -/
inductive Act where
  /-- `v <- MemRead(r)`. -/
  | read (r : RegName)
  /-- `MemWrite(r, x)`. -/
  | write (r : RegName) (x : Word)
  /-- `MemWrite(r, v)`, the second half of a read-modify-write of a configuration register. -/
  | writeWorking (r : RegName)
  /-- `Wait(ms)`. -/
  | wait (ms : Nat)
  /-- The control-word read of a micro-op's `CwApply` (spec/40_codec.md R142). -/
  | cwRead (op : CwOp)
  /-- The control-word write of a micro-op. -/
  | cwWrite (op : CwOp)
  deriving DecidableEq, Repr

/-- The pure computations between two actions, named by where they stand in the rules. What each one does is in
Machine/Verdicts.lean. -/
inductive Test where
  | currentStateResult
  | enableState
  | enableCountFault
  | disableState
  | disableRecheck
  | shutdownState
  | quickStopState
  | quickStopRecheck
  | modeDiffers (mode : Int)
  | modeResult
  | stage (k : Fin 6)
  | driveModeEdit (tag : Byte)
  | driveModeResult
  | pollNext (p : Poll)
  | pollCheck (p : Poll)
  | haltMode
  | homingSpeedOrder (speedToZero speedToSwitch : Word)
  | homingAbort
  | homingResult
  | packPos (unit exponent : Byte)
  | posUnitsResult
  | packVel (unit exponent timebase : Byte)
  | velUnitsResult
  | precondition
  deriving DecidableEq, Repr

/-- A statement of a command's text. -/
inductive Stmt where
  | act (a : Act)
  | test (t : Test)
  deriving DecidableEq, Repr

/-- Where the running command stands (R36): just issued, with its gate and first action still to come, or before the
rest of its rule's text. -/
inductive SeqStep where
  | issued
  | before (todo : List Stmt)
  deriving DecidableEq, Repr

/-- The sequencer step and its temporaries (R36, R37), with the staged results (spec/60_exceptions.md R356) and, in a
BIND_* or UNBIND, what the command's end writes to `CTRL` (spec/42_motion_base.md R228, R229). -/
structure Sequencer where
  step : SeqStep
  prev : Option PowerState
  faults : Nat
  n : Nat
  v : Word
  staged : List (Fin 6 × Word)
  bind : Option Ctrl
  deriving DecidableEq, Repr

/-- The sequencer as it is when a command is issued: `prev` is `NONE`, `faults` is 0 (R37). -/
def Sequencer.fresh : Sequencer :=
  { step := .issued, prev := none, faults := 0, n := 0, v := 0, staged := [], bind := none }

/-- The device handle `DEV`, opaque to the core (R33). -/
abbrev DeviceHandle := Nat

/-- An event of the trace (R16, R17, R19). A value is shown "at the register's access width", as its bit pattern
(spec/95_test_vectors.md, conventions). Every bus event carries the device handle of its call (R33). -/
inductive Event where
  | read (dev : DeviceHandle) (a : OdAddr) (w : Width) (v : Word)
  | readFailed (dev : DeviceHandle) (a : OdAddr) (w : Width)
  | write (dev : DeviceHandle) (a : OdAddr) (w : Width) (v : Word)
  | writeFailed (dev : DeviceHandle) (a : OdAddr) (w : Width) (v : Word)
  | wait (ms : Nat)
  deriving DecidableEq, Repr

/-- One answer of the collaborator to one call (R16, R376): success, with the `i64` that `readInteger` returns (a
`writeInteger` returns no value, so `x` is then ignored), or an error with its payload (R352). -/
inductive Answer where
  | ok (x : DWord)
  | error (payload : Word)
  deriving DecidableEq, Repr

/-- A move of the host (R12, R32, R35). -/
inductive HostMove where
  /-- Issue a command; the host waits for `PORT = IDLE` (R35). -/
  | issue (f : Frame)
  /-- Wait for `PORT = IDLE`. -/
  | awaitIdle
  /-- Let the core make one step. -/
  | pass
  /-- Write `OPC` and `ARG` without issuing, whatever `PORT` is; while BUSY it has no effect (R363). -/
  | writePort (f : Frame)
  /-- Read `STATUS`. -/
  | readStatus
  /-- Read `RES[k]`. -/
  | readRes (k : Fin 6)
  deriving DecidableEq, Repr

/-- What a host read returned. -/
inductive HostSeen where
  | status (x : Byte)
  | res (k : Fin 6) (x : Word)
  deriving DecidableEq, Repr

/-- The state of the machine. The last five fields are the model's own (log entries 4, 5, 6, 10). -/
structure State where
  /-- The implementation parameters, "fixed for the whole run" (spec/70_reset_and_hazards.md R394). -/
  params : Params
  /-- The device handle, "fixed for the life of a core instance" (R33). -/
  dev : DeviceHandle
  /-- The binding register (R34). -/
  ctrl : Ctrl
  /-- The command opcode (R32). -/
  opc : Byte
  /-- The operand registers (R32). -/
  arg : Bank
  /-- The result status (R32). -/
  status : Byte
  /-- The result registers (R32). -/
  res : Bank
  /-- The handshake state (R35). -/
  port : Port
  /-- The sequencer step and temporaries; they exist only while a command runs (R36, R50). -/
  seq : Option Sequencer
  /-- The events of the run so far, oldest first (R16, R81). -/
  trace : List Event
  /-- What the collaborator will answer, oldest first: the oracle of R31. -/
  bus : List Answer
  /-- How many ends of a `Wait` the timer has reported and the core has not yet used (R410). -/
  timer : Nat
  /-- The host's moves to come, first to last. -/
  host : List HostMove
  /-- What the host's reads returned, oldest first. -/
  hostSeen : List HostSeen
  /-- Whether a command has completed since reset (R50). -/
  completed : Bool
  deriving DecidableEq, Repr

/-- Why the machine stops. Both are the spec's own "fault" treatment (spec/93_implementation_defined.md). -/
inductive Fault where
  /-- The gate or the HALT dispatch finds `CTRL` at 5, 6 or 7 (I15). Raised by the gate of a mode command and by
  HALT. Safe: no run from reset reaches it. -/
  | ctrlNeverHeld
  /-- The host reads `STATUS` or `RES` before the first completion (R50, I9). Raised by the host's move. Safe: the
  spec states the fault. -/
  | hostReadBeforeCompletion
  deriving DecidableEq, Repr

/-- Why the machine has no meaning for an instruction. -/
inductive Refusal where
  /-- The instruction has no meaning yet. No arm of `exec` answers it. Safe. -/
  | notModelled (mnemonic : String)
  deriving DecidableEq, Repr

/-- The machine right after reset (R50, R390): nothing bound, PORT IDLE, no sequencer, no event. `OPC`, `ARG`,
`STATUS` and `RES` have no value in the spec and are 0 here (DESIGN CHOICE, log entry 1), as is `DEV` (DESIGN CHOICE, log entry 2);
the parameters have the values of R10 (its `[gk]` ones PRESUMED, log entry 3); no input is pending. -/
def State.reset : State :=
  { params := defaultParams
    dev := 0
    ctrl := .unbound
    opc := 0
    arg := Bank.zero
    status := 0
    res := Bank.zero
    port := .idle
    seq := none
    trace := []
    bus := []
    timer := 0
    host := []
    hostSeen := []
    completed := false }

/-- The outcome of a step of this machine. -/
abbrev Result := Host.Outcome State Fault Refusal

end Sys2Proof.Machine
end

