-- ==== Sys2Proof/Machine/Flags.lean ====
section
/-! DEFINITION. The decoders of the drive's status word, "the flag set the core tests" (spec/10_state.md R38, R40);
the core has no flags of its own. Also the codes of the closed enumerations (spec/30_encoding.md R106, R108, R109). -/

namespace Sys2Proof.Machine

/-! ## Codes -/

/-- PowerState codes (R108). -/
def powerStateCode : PowerState → Word
  | .notReadyToSwitchOn => 0
  | .switchedOnDisabled => 1
  | .readyToSwitchOn => 2
  | .switchedOn => 3
  | .operationEnabled => 4
  | .quickStopActive => 5
  | .faultReactionActive => 6
  | .fault => 7

/-- HomingState codes (R109). -/
def homingStateCode : HomingState → Word
  | .inProgress => 0
  | .incomplete => 1
  | .unachieved => 2
  | .completed => 3
  | .errorStillMoving => 4
  | .errorHalt => 5

/-- `CTRL` codes (R34). -/
def ctrlCode : Ctrl → BitVec 3
  | .unbound => 0
  | .homing => 1
  | .profilePosition => 2
  | .velocity => 3
  | .autoSetup => 4
  | .neverHeld k => BitVec.ofNat 3 (5 + k.val)

/-- `STATUS` after success (R106). -/
def statusOk : Byte := 0x00

/-- `STATUS` after an I/O error (R106). -/
def statusIoError : Byte := 0x01

/-- `STATUS` codes of the protocol errors (R106, R351). -/
def protocolCode : ProtocolError → Byte
  | .illegalCommand => 0x02
  | .notReadyToSwitchOn => 0x10
  | .unknownState => 0x11
  | .couldNotDisable => 0x12
  | .quickStopFailed => 0x13
  | .faultNotCleared => 0x14
  | .couldNotEnable => 0x15
  | .saveTimeout => 0x20
  | .autoSetupTimeout => 0x21
  | .preconditionFailed => 0x22
  | .invalidHaltMode => 0x23
  | .invalidHomingSpeedOrder => 0x24
  | .unknownDriveMode => 0x25
  | .unknownHomingState => 0x26

/-! ## The status-word decoder -/

/-- The template of a power state (R112). -/
def templateOf (t : StateTemplates) : PowerState → Template
  | .notReadyToSwitchOn => t.notReadyToSwitchOn
  | .switchedOnDisabled => t.switchedOnDisabled
  | .readyToSwitchOn => t.readyToSwitchOn
  | .switchedOn => t.switchedOn
  | .operationEnabled => t.operationEnabled
  | .quickStopActive => t.quickStopActive
  | .faultReactionActive => t.faultReactionActive
  | .fault => t.fault

/-- `(sw & mask_S) == value_S` (R112). -/
def templateMatches (t : Template) (sw : HalfWord) : Bool := (sw &&& t.mask) == t.value

/-- The fixed priority order (R113). -/
def statePriority : List PowerState :=
  [.notReadyToSwitchOn, .switchedOnDisabled, .readyToSwitchOn, .switchedOn, .operationEnabled, .quickStopActive,
    .faultReactionActive, .fault]

/-- `DecodeState(sw)`: the first state whose template matches, `none` for `UnknownState`
(spec/40_codec.md R152). -/
def decodeState (t : StateTemplates) (sw : HalfWord) : Option PowerState :=
  statePriority.find? (fun p => templateMatches (templateOf t p) sw)

/-! ## The homing decoder -/

/-- `DecodeHoming(sw)` on the key (bit 13, bit 12, bit 10), `none` for `UnknownHomingState` (R114, R156). -/
def decodeHoming (sw : HalfWord) : Option HomingState :=
  match sw.getLsbD 13, sw.getLsbD 12, sw.getLsbD 10 with
  | false, false, false => some .inProgress
  | false, false, true => some .incomplete
  | false, true, false => some .unachieved
  | false, true, true => some .completed
  | true, false, false => some .errorStillMoving
  | true, false, true => some .errorHalt
  | true, true, _ => none

/-! ## The bits the auto-setup sequencer tests -/

/-- The auto-setup completion bit, 12 (R111). -/
def autoSetupDone (sw : HalfWord) : Bool := sw.getLsbD 12

/-- `sw[REMOTE_BIT] & sw[QS_BIT] & sw[RTSO_BIT]` (spec/46_auto_setup.md R330). -/
def precondAllSet (p : Params) (sw : HalfWord) : Bool :=
  sw.getLsbD p.remoteBit && sw.getLsbD p.qsBit && sw.getLsbD p.rtsoBit

/-- Whether the precondition is violated, by the sense the parameter selects (R330). -/
def precondViolated (p : Params) (sw : HalfWord) : Bool :=
  match p.autoSetupPrecondSense with
  | .failWhenAllSet => precondAllSet p sw
  | .failUnlessAllSet => !precondAllSet p sw

end Sys2Proof.Machine
end

