-- ==== Sys2Proof/Machine/Operands.lean ====
section
/-! DEFINITION. Register values: which parameter a register name stands for, how a read is narrowed, how a written
value is cut to its width, the control-word masks, and the packings (spec/00_scope.md R10, R16;
spec/20_memory.md R73; spec/30_encoding.md R102, R115, R117, R118). Operand slices of a frame are in Decode.lean. -/

namespace Sys2Proof.Machine

/-! ## Registers -/

/-- The parameter row of a register (R10); `od(OD_SAVE_INDEX, g)` is a register of `PARAM_WIDTH`, unsigned
(spec/10_state.md R47, R48). -/
def regParam (p : Params) : RegName → RegParam
  | .cw => p.odCw
  | .sw => p.odSw
  | .mode => p.odMode
  | .driveMode => p.odDriveMode
  | .polePairs => p.odPolePairs
  | .ratedCurrent => p.odRatedCurrent
  | .maxCurrent => p.odMaxCurrent
  | .maxCurrentDuration => p.odMaxCurrentDuration
  | .idleCurrent => p.odIdleCurrent
  | .save g => ⟨⟨p.odSaveIndex, g⟩, p.paramWidth, false⟩
  | .feedNum => p.odFeedNum
  | .feedDen => p.odFeedDen
  | .posActual => p.odPosActual
  | .speedActual => p.odSpeedActual
  | .velActual => p.odVelActual
  | .velDemand => p.odVelDemand
  | .haltOption => p.odHaltOption
  | .lswOption => p.odLswOption
  | .homingMethod => p.odHomingMethod
  | .homingSpeedSwitch => p.odHomingSpeedSwitch
  | .homingSpeedZero => p.odHomingSpeedZero
  | .homingAccel => p.odHomingAccel
  | .targetPosition => p.odTargetPosition
  | .profileVelocity => p.odProfileVelocity
  | .profileAccel => p.odProfileAccel
  | .posUnits => p.odPosUnits
  | .velUnits => p.odVelUnits
  | .targetVelocity => p.odTargetVelocity
  | .velAccDs => p.odVelAccDs
  | .velAccDt => p.odVelAccDt
  | .velDecDs => p.odVelDecDs
  | .velDecDt => p.odVelDecDt

/-- `od(i, s)` as the 24-bit number `{i, s}` (R15). -/
def odNumber (a : OdAddr) : BitVec 24 := a.index ++ a.sub

/-- The low bits of a value at a register's width: `v[w-1:0]` (R16). -/
def lowBits : Width → Word → Word
  | .w8, x => (x.setWidth 8).setWidth 32
  | .w16, x => (x.setWidth 16).setWidth 32
  | .w32, x => x

/-- What `MemRead` returns of the collaborator's `i64`: the low `w` bits, sign-extended when the register is signed
and zero-extended otherwise (R16, decision D16). -/
def narrow (r : RegParam) (x : DWord) : Word :=
  match r.width, r.signed with
  | .w8, true => (x.setWidth 8).signExtend 32
  | .w8, false => (x.setWidth 8).setWidth 32
  | .w16, true => (x.setWidth 16).signExtend 32
  | .w16, false => (x.setWidth 16).setWidth 32
  | .w32, _ => x.setWidth 32

/-- A status or control word in the working value. -/
def word16 (v : Word) : HalfWord := v.setWidth 16

/-- A mode in the working value, as an i8 (R204, R226). -/
def modeOf (v : Word) : Int := (v.setWidth 8).toInt

/-! ## Control-word micro-ops -/

/-- The set mask of a micro-op (R102). `CW_CLEAR_ALL` has none. -/
def cwSet : CwOp → HalfWord
  | .shutdown => 0x0006
  | .switchOn => 0x0007
  | .enableOperation => 0x000F
  | .disableOperation => 0x0007
  | .disableVoltage => 0x0000
  | .quickStop => 0x0002
  | .qsRecover1 => 0x0000
  | .faultResetLow => 0x0000
  | .faultResetHigh => 0x0080
  | .startSet => 0x0010
  | .startClear => 0x0000
  | .haltSet => 0x0100
  | .haltClear => 0x0000
  | .ppTargetAbs => 0x0000
  | .ppTargetRel => 0x0040
  | .ppStart => 0x0030
  | .clearAll => 0x0000

/-- The clear mask of a micro-op (R102). -/
def cwClr : CwOp → HalfWord
  | .shutdown => 0x0081
  | .switchOn => 0x0088
  | .enableOperation => 0x0080
  | .disableOperation => 0x0088
  | .disableVoltage => 0x0082
  | .quickStop => 0x0084
  | .qsRecover1 => 0x0004
  | .faultResetLow => 0x0080
  | .faultResetHigh => 0x0000
  | .startSet => 0x0000
  | .startClear => 0x0010
  | .haltSet => 0x0000
  | .haltClear => 0x0100
  | .ppTargetAbs => 0x0050
  | .ppTargetRel => 0x0010
  | .ppStart => 0x0100
  | .clearAll => 0x0000

/-- `((v | set) & ~clr) & 0xFFFF` (spec/40_codec.md R142). -/
def applyMasks (v set clr : HalfWord) : HalfWord := (v ||| set) &&& ~~~clr

/-- The control word a micro-op writes over the word `v` it read; `CW_CLEAR_ALL` writes 0 whatever `v` is
(R142, R167). -/
def cwWord (op : CwOp) (v : HalfWord) : HalfWord :=
  match op with
  | .clearAll => 0x0000
  | _ => applyMasks v (cwSet op) (cwClr op)

/-! ## Packings -/

/-- `pack_pos(old, unit, exp) = {exp, unit, old[15:0]}` (R117). -/
def packPos (old : Word) (unit exponent : Byte) : Word :=
  exponent ++ unit ++ old.setWidth 16

/-- `pack_vel(old, unit, exp, tb) = {exp, unit, tb, old[7:0]}` (R118). -/
def packVel (old : Word) (unit exponent timebase : Byte) : Word :=
  exponent ++ unit ++ timebase ++ old.setWidth 8

/-- `r[23:16]`, the unit code (R117, R118). -/
def unitField (r : Word) : Byte := r.extractLsb' 16 8

/-- `r[31:24]`, the exponent byte (R117, R118). -/
def exponentField (r : Word) : Byte := r.extractLsb' 24 8

/-- `r[15:8]`, the time base (R118). -/
def timebaseField (r : Word) : Byte := r.extractLsb' 8 8

/-! ## Drive mode -/

/-- Bit 0, closed loop (spec/10_state.md R42, R115). -/
def closedLoopBit : Word := 0x00000001
/-- Bit 3, current reduction. -/
def currentReductionBit : Word := 0x00000008
/-- Bit 6, BLDC. -/
def bldcBit : Word := 0x00000040

/-- The value SET_MOTOR_PARAMETERS writes to the drive-mode register over `r`, `none` for an unknown tag
(spec/42_motion_base.md R207). BLDC ORs its tag. -/
def driveModeWord (t : DriveModeTags) (tag : Byte) (r : Word) : Option Word :=
  if tag = t.stepperOpenLoopNoReduction then some (r &&& ~~~(closedLoopBit ||| currentReductionBit ||| bldcBit))
  else if tag = t.stepperClosedLoop then some ((r ||| closedLoopBit) &&& ~~~bldcBit)
  else if tag = t.stepperOpenLoopWithReduction then
    some ((r &&& ~~~(closedLoopBit ||| bldcBit)) ||| currentReductionBit)
  else if tag = t.bldc then some (r ||| t.bldc.setWidth 32)
  else none

/-- The tag GET_MOTOR_PARAMETERS infers from the drive-mode register (R209). -/
def driveModeTagOf (t : DriveModeTags) (r : Word) : Byte :=
  if r.getLsbD 0 = false then
    if r.getLsbD 3 = true then t.stepperOpenLoopWithReduction else t.stepperOpenLoopNoReduction
  else if r.getLsbD 6 = true then t.bldc
  else t.stepperClosedLoop

/-- The modes BaseHalt accepts: ProfilePosition, Velocity, ProfileVelocity, ProfileTorque, InterpolatedPosition
(R226). -/
def haltable (m : Int) : Bool := m == 1 || m == 2 || m == 3 || m == 4 || m == 7

/-! ## Results -/

/-- The staged results written to `RES`, in the order they were staged (spec/60_exceptions.md R356). -/
def commit (staged : List (Fin 6 × Word)) (res : Bank) : Bank :=
  staged.foldl (fun b kx => b.set kx.1 kx.2) res

end Sys2Proof.Machine
end

