-- ==== Sys2Proof/Machine/Texts.lean ====
section
/-! DEFINITION. The texts of the rules that other rules call inline (spec/00_scope.md R17: "`call OP(args)` runs
command rule `OP` inline as a sub-sequence"): the control-word micro-ops, EnableOperation, DisableOperation,
SetModeOfOperation and the polling arbiter. A text is the list of the rule's statements in text order; the list of
those still to come is the sequencer step (spec/10_state.md R36; DEDUCED, log entry 7). -/

namespace Sys2Proof.Machine

/-- A micro-op: the read and the write of its `CwApply`, or the plain write of `CW_CLEAR_ALL`
(spec/40_codec.md R142, R167). -/
def cwText : CwOp → List Stmt
  | .clearAll => [.act (.cwWrite .clearAll)]
  | op => [.act (.cwRead op), .act (.cwWrite op)]

/-- `FaultResetPulse`: clear bit 7, then set it, each with its own control-word read (R150). -/
def faultResetPulse : List Stmt := cwText .faultResetLow ++ cwText .faultResetHigh

/-- `QsRecover`: two writes with no status read between them (R149). -/
def qsRecover : List Stmt := cwText .qsRecover1 ++ cwText .enableOperation

/-- `EnableOperation()`: one turn of the loop; `enableState` puts the loop's text back (spec/41_power_state_machine.md
R172). -/
def enableText : List Stmt := [.act (.read .sw), .test .enableState]

/-- `DisableOperation()` (R178). -/
def disableText : List Stmt :=
  [.act (.read .sw), .test .disableState, .act (.read .sw), .test .disableRecheck]

/-- `SetModeOfOperation(mode)` (spec/42_motion_base.md R204); `modeDiffers` puts the disable and the write in. -/
def setModeText (mode : Int) : List Stmt := [.act (.read .mode), .test (.modeDiffers mode)]

/-- `PollUntil`, before its first read (R160). -/
def pollText (p : Poll) : List Stmt := [.test (.pollNext p)]

/-- The register a poll reads (R160). -/
def pollReg : Poll → RegName
  | .save g => .save g
  | .autoSetup => .sw

end Sys2Proof.Machine
end

