-- ==== Sys2Proof/Machine/Verdicts.lean ====
section
/-! DEFINITION. The pure computations between two actions of a command's text. "Pure computation between two actions
is part of the action that follows it" (spec/10_state.md R36): a computation reads the working value of the last read
and raises an error, goes on, or puts statements in front of the rest of the text. -/

namespace Sys2Proof.Machine

/-- What a pure computation decides. -/
inductive Verdict where
  /-- `raise e()`. -/
  | raise (e : ProtocolError)
  /-- Go on with the rest of the text. -/
  | pass (q : Sequencer)
  /-- The text goes on with the action `a`, then `more`, then the rest. -/
  | act (a : Act) (more : List Stmt) (q : Sequencer)
  deriving DecidableEq, Repr

/-- The text goes on with a micro-op that reads the control word, then `more`. -/
def Verdict.cw (op : CwOp) (more : List Stmt) (q : Sequencer) : Verdict :=
  .act (.cwRead op) (.act (.cwWrite op) :: more) q

/-- Stage a result (spec/60_exceptions.md R356). -/
def Sequencer.stageResult (q : Sequencer) (k : Fin 6) (x : Word) : Sequencer :=
  { q with staged := q.staged ++ [(k, x)] }

/-- The power state of the working value, by the decoder. -/
def readState (p : Params) (q : Sequencer) : Option PowerState := decodeState p.stateTemplates (word16 q.v)

/-! ## Power-state commands (spec/41_power_state_machine.md) -/

/-- CURRENT_STATE: `RES[0] <- code(s)` (R170). -/
def currentStateResultVerdict (p : Params) (q : Sequencer) : Verdict :=
  match readState p q with
  | none => .raise .unknownState
  | some st => .pass (q.stageResult 0 (powerStateCode st))

/-- The body of the EnableOperation loop after its read, and its stall exit (R172, R175, R176). -/
def enableStateVerdict (p : Params) (q : Sequencer) : Verdict :=
  match readState p q with
  | none => .raise .unknownState
  | some st =>
    if q.prev = some st ∧ st ≠ .fault then
      if st = .operationEnabled then .pass q
      else
        match p.enableStallResult with
        | none => .pass q
        | some e => .raise e
    else
      let q' := { q with prev := some st }
      match st with
      | .notReadyToSwitchOn => .raise .notReadyToSwitchOn
      | .switchedOnDisabled => .cw .shutdown enableText q'
      | .readyToSwitchOn => .cw .switchOn enableText q'
      | .switchedOn => .cw .enableOperation enableText q'
      | .operationEnabled => .act (.read .sw) [.test .enableState] q'
      | .quickStopActive => .cw .qsRecover1 (cwText .enableOperation ++ enableText) q'
      | .faultReactionActive => .act (.read .sw) [.test .enableState] q'
      | .fault => .cw .faultResetLow (cwText .faultResetHigh ++ .test .enableCountFault :: enableText) q'

/-- `faults <- faults + 1`, and the error on the 3rd encounter (R172, R173). -/
def enableCountFaultVerdict (p : Params) (q : Sequencer) : Verdict :=
  if q.faults + 1 = p.faultResetRetries + 1 then .raise .faultNotCleared
  else .pass { q with faults := q.faults + 1 }

/-- DisableOperation after its first read (R178). -/
def disableStateVerdict (p : Params) (q : Sequencer) : Verdict :=
  match readState p q with
  | none => .raise .unknownState
  | some .notReadyToSwitchOn => .raise .notReadyToSwitchOn
  | some .fault => .cw .faultResetLow (cwText .faultResetHigh) q
  | some .operationEnabled => .cw .disableOperation [] q
  | some _ => .pass q

/-- DisableOperation's re-read (R178). -/
def disableRecheckVerdict (p : Params) (q : Sequencer) : Verdict :=
  match readState p q with
  | none => .raise .unknownState
  | some .operationEnabled => .raise .couldNotDisable
  | some _ => .pass q

/-- Shutdown after its read (R181). -/
def shutdownStateVerdict (p : Params) (q : Sequencer) : Verdict :=
  match readState p q with
  | none => .raise .unknownState
  | some .notReadyToSwitchOn => .raise .notReadyToSwitchOn
  | some .fault => .cw .faultResetLow (cwText .faultResetHigh) q
  | some .quickStopActive => .cw .disableVoltage [] q
  | some .operationEnabled => .cw .shutdown [] q
  | some .switchedOn => .cw .shutdown [] q
  | some .switchedOnDisabled => .cw .shutdown [] q
  | some .readyToSwitchOn => .pass q
  | some .faultReactionActive => .pass q

/-- QuickStop after its first read (R184). -/
def quickStopStateVerdict (p : Params) (q : Sequencer) : Verdict :=
  match readState p q with
  | none => .raise .unknownState
  | some .operationEnabled => .cw .quickStop [] q
  | some _ => .pass q

/-- QuickStop's re-read (R184). -/
def quickStopRecheckVerdict (p : Params) (q : Sequencer) : Verdict :=
  match readState p q with
  | none => .raise .unknownState
  | some .operationEnabled => .raise .quickStopFailed
  | some _ => .pass q

/-! ## Motion base (spec/42_motion_base.md) -/

/-- SetModeOfOperation: done when the drive has the mode; else disable, then write it (R204). -/
def modeDiffersVerdict (mode : Int) (q : Sequencer) : Verdict :=
  if modeOf q.v = mode then .pass q
  else
    .act (.read .sw)
      [.test .disableState, .act (.read .sw), .test .disableRecheck, .act (.write .mode (BitVec.ofInt 32 mode))] q

/-- GET_MODE_OF_OPERATION: `RES[0] <- sext_32(m)` (R205). -/
def modeResultVerdict (q : Sequencer) : Verdict := .pass (q.stageResult 0 ((q.v.setWidth 8).signExtend 32))

/-- A plain read into a result: `RES[k] <- MemRead(...)`. -/
def stageVerdict (k : Fin 6) (q : Sequencer) : Verdict := .pass (q.stageResult k q.v)

/-- The drive-mode edit of SET_MOTOR_PARAMETERS (R207). -/
def driveModeEditVerdict (p : Params) (tag : Byte) (q : Sequencer) : Verdict :=
  match driveModeWord p.driveModeTags tag q.v with
  | none => .raise .unknownDriveMode
  | some r => .pass { q with v := r }

/-- The drive mode GET_MOTOR_PARAMETERS reports in `RES[5]` (R209). -/
def driveModeResultVerdict (p : Params) (q : Sequencer) : Verdict :=
  .pass (q.stageResult 5 ((driveModeTagOf p.driveModeTags q.v).setWidth 32))

/-- BaseHalt's test of the mode it read (R226). -/
def haltModeVerdict (q : Sequencer) : Verdict :=
  if haltable (modeOf q.v) then .pass q else .raise .invalidHaltMode

/-! ## The polling arbiter (spec/40_codec.md R160) -/

/-- The bound of a poll (R160, R10). -/
def pollMax (p : Params) : Poll → Nat
  | .save _ => p.savePollMax
  | .autoSetup => p.autoSetupPollMax

/-- The interval of a poll in milliseconds. -/
def pollMs (p : Params) : Poll → Nat
  | .save _ => p.savePollMs
  | .autoSetup => p.autoSetupPollMs

/-- The error of a poll's timeout. -/
def pollTimeout : Poll → ProtocolError
  | .save _ => .saveTimeout
  | .autoSetup => .autoSetupTimeout

/-- The predicate of a poll on the value read: "exactly 1", or status bit 12. -/
def pollDone (v : Word) : Poll → Bool
  | .save _ => v == 1
  | .autoSetup => autoSetupDone (word16 v)

/-- `for n in 1..N`: the next turn's read, or the timeout after the last. -/
def pollNextVerdict (p : Params) (k : Poll) (q : Sequencer) : Verdict :=
  if pollMax p k ≤ q.n then .raise (pollTimeout k)
  else .act (.read (pollReg k)) [.test (.pollCheck k)] { q with n := q.n + 1 }

/-- The test of a poll's read: success, or the wait before the next turn. -/
def pollCheckVerdict (p : Params) (k : Poll) (q : Sequencer) : Verdict :=
  if pollDone q.v k then .pass q else .act (.wait (pollMs p k)) [.test (.pollNext k)] q

/-! ## Homing (spec/43_homing.md) -/

/-- SET_HOMING_SPEED's check, unsigned and strict, before any access (R241). -/
def homingSpeedOrderVerdict (z sw : Word) (q : Sequencer) : Verdict :=
  if z < sw then .pass q else .raise .invalidHomingSpeedOrder

/-- START_HOMING: abort a run in flight by clearing the start bit (R246). -/
def homingAbortVerdict (q : Sequencer) : Verdict :=
  match decodeHoming (word16 q.v) with
  | none => .raise .unknownHomingState
  | some .inProgress => .cw .startClear [] q
  | some _ => .pass q

/-- GET_HOMING_STATE: `RES[0] <- code(h)` (R251). -/
def homingResultVerdict (q : Sequencer) : Verdict :=
  match decodeHoming (word16 q.v) with
  | none => .raise .unknownHomingState
  | some h => .pass (q.stageResult 0 (homingStateCode h))

/-! ## User units (spec/44_profile_position.md, spec/45_velocity.md) -/

/-- The position packing (R277). -/
def packPosVerdict (unit exponent : Byte) (q : Sequencer) : Verdict := .pass { q with v := packPos q.v unit exponent }

/-- The position unit and exponent as results (R278). -/
def posUnitsResultVerdict (q : Sequencer) : Verdict :=
  .pass ((q.stageResult 0 ((unitField q.v).setWidth 32)).stageResult 1 ((exponentField q.v).setWidth 32))

/-- The velocity packing (R307). -/
def packVelVerdict (unit exponent timebase : Byte) (q : Sequencer) : Verdict :=
  .pass { q with v := packVel q.v unit exponent timebase }

/-- The velocity unit, exponent and time base as results (R308). -/
def velUnitsResultVerdict (q : Sequencer) : Verdict :=
  .pass (((q.stageResult 0 ((unitField q.v).setWidth 32)).stageResult 1 ((exponentField q.v).setWidth 32)).stageResult 2
    ((timebaseField q.v).setWidth 32))

/-! ## Auto-setup (spec/46_auto_setup.md) -/

/-- The precondition on the one status word read for it (R330). -/
def preconditionVerdict (p : Params) (q : Sequencer) : Verdict :=
  if precondViolated p (word16 q.v) then .raise .preconditionFailed else .pass q

/-- What a pure computation decides, by its name. -/
def verdict (p : Params) (q : Sequencer) : Test → Verdict
  | .currentStateResult => currentStateResultVerdict p q
  | .enableState => enableStateVerdict p q
  | .enableCountFault => enableCountFaultVerdict p q
  | .disableState => disableStateVerdict p q
  | .disableRecheck => disableRecheckVerdict p q
  | .shutdownState => shutdownStateVerdict p q
  | .quickStopState => quickStopStateVerdict p q
  | .quickStopRecheck => quickStopRecheckVerdict p q
  | .modeDiffers mode => modeDiffersVerdict mode q
  | .modeResult => modeResultVerdict q
  | .stage k => stageVerdict k q
  | .driveModeEdit tag => driveModeEditVerdict p tag q
  | .driveModeResult => driveModeResultVerdict p q
  | .pollNext k => pollNextVerdict p k q
  | .pollCheck k => pollCheckVerdict p k q
  | .haltMode => haltModeVerdict q
  | .homingSpeedOrder z sw => homingSpeedOrderVerdict z sw q
  | .homingAbort => homingAbortVerdict q
  | .homingResult => homingResultVerdict q
  | .packPos unit exponent => packPosVerdict unit exponent q
  | .posUnitsResult => posUnitsResultVerdict q
  | .packVel unit exponent timebase => packVelVerdict unit exponent timebase q
  | .velUnitsResult => velUnitsResultVerdict q
  | .precondition => preconditionVerdict p q

end Sys2Proof.Machine
end

