-- ==== Sys2Proof/Machine/Ops.lean ====
section
/-! DEFINITION. The operations every meaning is made of: raising an error and returning success, the bus and wait
primitives, and the sequencer that runs a command's text one action a step. -/

namespace Sys2Proof.Machine

/-! ## The end of a command -/

/-- An error a command can end with (spec/60_exceptions.md R350): an I/O error with the collaborator's payload
(R352), or a protocol error, which "carries no value" (R353). -/
inductive Raise where
  | ioError (payload : Word)
  | protocol (e : ProtocolError)
  deriving DecidableEq, Repr

/-- The `STATUS` code of an error (R351). -/
def raiseCode : Raise → Byte
  | .ioError _ => statusIoError
  | .protocol e => protocolCode e

/-- What an error does to `RES` (R352, R353). -/
def raiseResults (e : Raise) (res : Bank) : Bank :=
  match e with
  | .ioError payload => res.set 0 payload
  | .protocol _ => res

/-- TAKING AN ERROR: `raise E(info)` ends the running command at once (R355). `STATUS` and `RES` are set, the
sequencer step and temporaries are discarded, a failed BIND_* clears `CTRL` (R228), `PORT` becomes IDLE; "nothing else
is saved". There is no return from an error (R359): the next command is the host's to issue. -/
def raise (e : Raise) (q : Sequencer) (s : State) : State :=
  { s with
    ctrl := if q.bind.isSome then .unbound else s.ctrl
    status := raiseCode e
    res := raiseResults e s.res
    port := .idle
    seq := none
    completed := true }

/-- `return Ok`: the staged results are committed (R356), `STATUS` is Ok, `PORT` becomes IDLE
(spec/10_state.md R32, R35); a BIND_* or UNBIND writes `CTRL` (spec/42_motion_base.md R228, R229). -/
def returnOk (q : Sequencer) (s : State) : State :=
  { s with
    ctrl := q.bind.getD s.ctrl
    status := statusOk
    res := commit q.staged s.res
    port := .idle
    seq := none
    completed := true }

/-! ## The bus and wait primitives (spec/00_scope.md R16, R17)

Each is one action. A call the collaborator has not answered yet, or a wait the timer has not ended yet, leaves the
state as it is: the core waits (spec/70_reset_and_hazards.md R395, R410; log entries 4 and 5). A failed call performs
`raise IoError(e)` as part of the same action. -/

/-- The state after `MemRead(r)` returned `x`; the text goes on with `rest`. -/
def afterRead (r : RegName) (x : DWord) (more : List Answer) (rest : List Stmt) (q : Sequencer) (s : State) : State :=
  { s with
    bus := more
    trace := s.trace ++
      [.read s.dev (regParam s.params r).addr (regParam s.params r).width
        (lowBits (regParam s.params r).width (x.setWidth 32))]
    seq := some { q with v := narrow (regParam s.params r) x, step := .before rest } }

/-- The state in which a failed `MemRead(r)` raises its error. -/
def afterReadFailed (r : RegName) (more : List Answer) (s : State) : State :=
  { s with
    bus := more
    trace := s.trace ++ [.readFailed s.dev (regParam s.params r).addr (regParam s.params r).width] }

/-- `MemRead(r)`. -/
def memRead (r : RegName) (rest : List Stmt) (q : Sequencer) (s : State) : Result :=
  match s.bus with
  | [] => .next s
  | .ok x :: more => .next (afterRead r x more rest q s)
  | .error e :: more => .next (raise (.ioError e) q (afterReadFailed r more s))

/-- The state after `MemWrite(r, x)` succeeded. -/
def afterWrite (r : RegName) (x : Word) (more : List Answer) (rest : List Stmt) (q : Sequencer) (s : State) : State :=
  { s with
    bus := more
    trace := s.trace ++
      [.write s.dev (regParam s.params r).addr (regParam s.params r).width (lowBits (regParam s.params r).width x)]
    seq := some { q with step := .before rest } }

/-- The state in which a failed `MemWrite(r, x)` raises its error. The drive may or may not hold the value
(spec/20_memory.md R78); nothing in the model says which. -/
def afterWriteFailed (r : RegName) (x : Word) (more : List Answer) (s : State) : State :=
  { s with
    bus := more
    trace := s.trace ++
      [.writeFailed s.dev (regParam s.params r).addr (regParam s.params r).width
        (lowBits (regParam s.params r).width x)] }

/-- `MemWrite(r, x)`. -/
def memWrite (r : RegName) (x : Word) (rest : List Stmt) (q : Sequencer) (s : State) : Result :=
  match s.bus with
  | [] => .next s
  | .ok _ :: more => .next (afterWrite r x more rest q s)
  | .error e :: more => .next (raise (.ioError e) q (afterWriteFailed r x more s))

/-- The state after a `Wait(ms)` that the timer ended. -/
def afterWait (ms left : Nat) (rest : List Stmt) (q : Sequencer) (s : State) : State :=
  { s with
    timer := left
    trace := s.trace ++ [.wait ms]
    seq := some { q with step := .before rest } }

/-- `Wait(ms)`. -/
def waitMs (ms : Nat) (rest : List Stmt) (q : Sequencer) (s : State) : Result :=
  match s.timer with
  | 0 => .next s
  | left + 1 => .next (afterWait ms left rest q s)

/-! ## The sequencer (spec/10_state.md R36) -/

/-- One action, with the text that follows it. The write of a micro-op computes its word from the working value
(spec/40_codec.md R142). -/
def perform (a : Act) (rest : List Stmt) (q : Sequencer) (s : State) : Result :=
  match a with
  | .read r => memRead r rest q s
  | .write r x => memWrite r x rest q s
  | .writeWorking r => memWrite r q.v rest q s
  | .wait ms => waitMs ms rest q s
  | .cwRead _ => memRead .cw rest q s
  | .cwWrite op => memWrite .cw ((cwWord op (word16 q.v)).setWidth 32) rest q s

/-- One step of a command before the text `todo`: the pure computations up to the next action, and that action; or the
command's end. -/
def advance : List Stmt → Sequencer → State → Result
  | [], q, s => .next (returnOk q s)
  | .act a :: rest, q, s => perform a rest q s
  | .test t :: rest, q, s =>
    match verdict s.params q t with
    | .raise e => .next (raise (.protocol e) q s)
    | .pass q' => advance rest q' s
    | .act a more q' => perform a (more ++ rest) q' s

/-- What the gate asks of `CTRL` (spec/30_encoding.md R105): nothing, that it is a controller the machine can hold
(the HALT dispatch, R225), or one controller. -/
inductive Gate where
  | any
  | held
  | needs (c : Ctrl)
  deriving DecidableEq, Repr

/-- What the gate finds. -/
inductive Passage where
  | allowed
  | illegal
  | ctrlNeverHeld
  deriving DecidableEq, Repr

/-- The gate's check of `CTRL` (R105); a `CTRL` that is never held is a fault when it is read (I15). -/
def gateCheck (g : Gate) (c : Ctrl) : Passage :=
  match g, c with
  | .any, _ => .allowed
  | .held, .neverHeld _ => .ctrlNeverHeld
  | .held, _ => .allowed
  | .needs _, .neverHeld _ => .ctrlNeverHeld
  | .needs want, c => if c = want then .allowed else .illegal

/-- One step of a command with gate `g` and text `text`. A command just issued is checked by the gate, "before any bus
access", gets fresh temporaries (R37) and makes its first action; a command under way goes on where it stands. A state
with no sequencer step is read as a command just issued (DESIGN CHOICE, log entry 21). -/
def runCommand (g : Gate) (bind : Option Ctrl) (text : List Stmt) (s : State) : Result :=
  match (s.seq.getD .fresh).step with
  | .before todo => advance todo (s.seq.getD .fresh) s
  | .issued =>
    match gateCheck g s.ctrl with
    | .allowed => advance text { Sequencer.fresh with bind := bind } s
    | .illegal => .next (raise (.protocol .illegalCommand) { Sequencer.fresh with bind := bind } s)
    | .ctrlNeverHeld => .fault .ctrlNeverHeld

/-- The text still to come. -/
def Sequencer.todo (q : Sequencer) : List Stmt :=
  match q.step with
  | .issued => []
  | .before todo => todo

/-- The text `todo` with the micro-op `op` at its head: as it is when `op` is next or under way, else with `op` put
before it. -/
def microOpText (op : CwOp) (todo : List Stmt) : List Stmt :=
  match todo with
  | .act (.cwRead op') :: _ => if op' = op then todo else cwText op ++ todo
  | .act (.cwWrite op') :: _ => if op' = op then todo else cwText op ++ todo
  | _ => cwText op ++ todo

/-- One action of a micro-op: its control-word read, or its write. -/
def runMicroOp (op : CwOp) (s : State) : Result :=
  advance (microOpText op (s.seq.getD .fresh).todo) (s.seq.getD .fresh) s

end Sys2Proof.Machine
end

