-- ==== Sys2Proof/Machine/AutoSetup.lean ====
section
/-! DEFINITION. The auto-setup sequencer (spec/46_auto_setup.md). It needs `CTRL = AutoSetup` (R105). -/

namespace Sys2Proof.Machine

/-- `AutoSetupMotorParameters()` (R330): precondition, enable, start bit, poll, and the control word cleared on
success. -/
def autoSetupText : List Stmt :=
  [.act (.read .sw), .test .precondition] ++ enableText ++ cwText .startSet ++ pollText .autoSetup ++ cwText .clearAll

/-- AUTO_SETUP_MOTOR_PARAMETERS (R330). -/
def execAutoSetupMotorParameters (s : State) : Result := runCommand (.needs .autoSetup) none autoSetupText s

end Sys2Proof.Machine
end

