-- ==== Sys2Proof/Machine/ControlWord.lean ====
section
/-! DEFINITION. The control-word micro-ops as instructions (spec/30_encoding.md R102, spec/40_codec.md). Each is one
action of its `CwApply(set, clr)` with the masks of R102 (`cwSet`, `cwClr`): the control-word read, then the write;
`CW_CLEAR_ALL` is its one plain write. -/

namespace Sys2Proof.Machine

/-- `CW_SHUTDOWN` (R143). -/
def execCwShutdown (s : State) : Result := runMicroOp .shutdown s

/-- `CW_SWITCH_ON` (R144). -/
def execCwSwitchOn (s : State) : Result := runMicroOp .switchOn s

/-- `CW_ENABLE_OPERATION` (R145). -/
def execCwEnableOperation (s : State) : Result := runMicroOp .enableOperation s

/-- `CW_DISABLE_OPERATION` (R146). -/
def execCwDisableOperation (s : State) : Result := runMicroOp .disableOperation s

/-- `CW_DISABLE_VOLTAGE` (R147). -/
def execCwDisableVoltage (s : State) : Result := runMicroOp .disableVoltage s

/-- `CW_QUICK_STOP` (R148). -/
def execCwQuickStop (s : State) : Result := runMicroOp .quickStop s

/-- `CW_QS_RECOVER_1` (R149). -/
def execCwQsRecover1 (s : State) : Result := runMicroOp .qsRecover1 s

/-- `CW_FAULT_RESET_LOW` (R150). -/
def execCwFaultResetLow (s : State) : Result := runMicroOp .faultResetLow s

/-- `CW_FAULT_RESET_HIGH` (R150). -/
def execCwFaultResetHigh (s : State) : Result := runMicroOp .faultResetHigh s

/-- `CW_START_SET` (R161). -/
def execCwStartSet (s : State) : Result := runMicroOp .startSet s

/-- `CW_START_CLEAR` (R162). -/
def execCwStartClear (s : State) : Result := runMicroOp .startClear s

/-- `CW_HALT_SET` (R163). -/
def execCwHaltSet (s : State) : Result := runMicroOp .haltSet s

/-- `CW_HALT_CLEAR` (R164). -/
def execCwHaltClear (s : State) : Result := runMicroOp .haltClear s

/-- `CW_PP_TARGET_ABS` (R165). -/
def execCwPpTargetAbs (s : State) : Result := runMicroOp .ppTargetAbs s

/-- `CW_PP_TARGET_REL` (R165). -/
def execCwPpTargetRel (s : State) : Result := runMicroOp .ppTargetRel s

/-- `CW_PP_START` (R166). -/
def execCwPpStart (s : State) : Result := runMicroOp .ppStart s

/-- `CW_CLEAR_ALL` (R167). -/
def execCwClearAll (s : State) : Result := runMicroOp .clearAll s

end Sys2Proof.Machine
end

