-- ==== Sys2Proof/Machine/Homing.lean ====
section
/-! DEFINITION. The homing controller (spec/43_homing.md). Every command here needs `CTRL = Homing` (R105). HomingHalt
(R253) is with HALT in Machine/MotionBase.lean. -/

namespace Sys2Proof.Machine

/-- `SetHomingSpeed(z, sw)` (R241). -/
def setHomingSpeedText (z sw : Word) : List Stmt :=
  [.test (.homingSpeedOrder z sw), .act (.write .homingSpeedZero z), .act (.write .homingSpeedSwitch sw)]

/-- SET_HOMING_SPEED (R241). -/
def execSetHomingSpeed (speedToZero speedToSwitch : Word) (s : State) : Result :=
  runCommand (.needs .homing) none (setHomingSpeedText speedToZero speedToSwitch) s

/-- `SetHomingMode(method)` (R243). -/
def setHomingModeText (method : Word) : List Stmt := [.act (.write .homingMethod method)]

/-- SET_HOMING_MODE (R243). -/
def execSetHomingMode (method : Int) (s : State) : Result :=
  runCommand (.needs .homing) none (setHomingModeText (BitVec.ofInt 32 method)) s

/-- SET_HOMING_ACCELERATION (R244). -/
def execSetHomingAcceleration (acc : Word) (s : State) : Result :=
  runCommand (.needs .homing) none [.act (.write .homingAccel acc)] s

/-- `StartHoming()` (R246): abort a run in flight, set the limit-switch option, raise the start bit, enable. -/
def startHomingText (p : Params) : List Stmt :=
  [.act (.read .sw), .test .homingAbort, .act (.write .lswOption p.lswOptRecordOnly)] ++ cwText .startSet ++ enableText

/-- START_HOMING (R246). -/
def execStartHoming (s : State) : Result := runCommand (.needs .homing) none (startHomingText s.params) s

/-- `Home(z, sw)` (R249): the speeds, the method `HOME_METHOD`, then StartHoming. -/
def homeText (p : Params) (z sw : Word) : List Stmt :=
  setHomingSpeedText z sw ++ setHomingModeText p.homeMethod ++ startHomingText p

/-- HOME (R249). -/
def execHome (speedToZero speedToSwitch : Word) (s : State) : Result :=
  runCommand (.needs .homing) none (homeText s.params speedToZero speedToSwitch) s

/-- GET_HOMING_STATE (R251). -/
def getHomingStateText : List Stmt := [.act (.read .sw), .test .homingResult]

def execGetHomingState (s : State) : Result := runCommand (.needs .homing) none getHomingStateText s

end Sys2Proof.Machine
end

