-- ==== Sys2Proof/Machine/MotionBase.lean ====
section
/-! DEFINITION. The motion-controller base commands and the controller binding (spec/42_motion_base.md). "Disables
operation" is the text of DISABLE_OPERATION put first (R200). -/

namespace Sys2Proof.Machine

/-- SET_MODE_OF_OPERATION (R204). -/
def execSetModeOfOperation (mode : Int) (s : State) : Result := runCommand .any none (setModeText mode) s

/-- GET_MODE_OF_OPERATION (R205). -/
def getModeText : List Stmt := [.act (.read .mode), .test .modeResult]

def execGetModeOfOperation (s : State) : Result := runCommand .any none getModeText s

/-- SET_MOTOR_PARAMETERS (R207): the unknown-tag check comes after the five writes and the read. -/
def setMotorParametersText (pp rc mc mcd ic : Word) (dm : Byte) : List Stmt :=
  disableText ++
    [.act (.write .polePairs pp), .act (.write .ratedCurrent rc), .act (.write .maxCurrent mc),
      .act (.write .maxCurrentDuration mcd), .act (.write .idleCurrent ic), .act (.read .driveMode),
      .test (.driveModeEdit dm), .act (.writeWorking .driveMode)]

def execSetMotorParameters (polePairCount ratedCurrent maxCurrent maxCurrentDuration idleCurrent : Word)
    (driveMode : Byte) (s : State) : Result :=
  runCommand .any none
    (setMotorParametersText polePairCount ratedCurrent maxCurrent maxCurrentDuration idleCurrent driveMode) s

/-- GET_MOTOR_PARAMETERS (R209). -/
def getMotorParametersText : List Stmt :=
  [.act (.read .polePairs), .test (.stage 0), .act (.read .ratedCurrent), .test (.stage 1),
    .act (.read .maxCurrent), .test (.stage 2), .act (.read .maxCurrentDuration), .test (.stage 3),
    .act (.read .idleCurrent), .test (.stage 4), .act (.read .driveMode), .test .driveModeResult]

def execGetMotorParameters (s : State) : Result := runCommand .any none getMotorParametersText s

/-- SAVE_GROUP (R212). -/
def saveGroupText (p : Params) (g : Byte) : List Stmt :=
  disableText ++ .act (.write (.save g) p.saveSignature) :: pollText (.save g)

def execSaveGroup (groupId : Byte) (s : State) : Result := runCommand .any none (saveGroupText s.params groupId) s

/-- SET_USER_UNITS_FEED (R215). -/
def setFeedText (num den : Word) : List Stmt :=
  disableText ++ [.act (.write .feedNum num), .act (.write .feedDen den)]

def execSetUserUnitsFeed (feedNumerator shaftRevolutions : Word) (s : State) : Result :=
  runCommand .any none (setFeedText feedNumerator shaftRevolutions) s

/-- An actual-value read: `RES[0] <- MemRead(r)` (R217 to R220). -/
def getValueText (r : RegName) : List Stmt := [.act (.read r), .test (.stage 0)]

/-- GET_POSITION_ACTUAL (R217). -/
def execGetPositionActual (s : State) : Result := runCommand .any none (getValueText .posActual) s

/-- GET_SPEED_ACTUAL (R218). -/
def execGetSpeedActual (s : State) : Result := runCommand .any none (getValueText .speedActual) s

/-- GET_VELOCITY_ACTUAL (R219). -/
def execGetVelocityActual (s : State) : Result := runCommand .any none (getValueText .velActual) s

/-- GET_VELOCITY_DEMANDED (R220). -/
def execGetVelocityDemanded (s : State) : Result := runCommand .any none (getValueText .velDemand) s

/-- `BaseHalt` (R226). -/
def baseHaltText (p : Params) : List Stmt :=
  .act (.read .mode) :: .test .haltMode :: .act (.write .haltOption p.haltOptSlowdown) :: cwText .haltSet

/-- `HomingHalt`: "clears the start bit only" (spec/43_homing.md R253). -/
def homingHaltText : List Stmt := cwText .startClear

/-- `PositionHalt`: "sets only the halt bit" (spec/44_profile_position.md R280). -/
def positionHaltText : List Stmt := cwText .haltSet

/-- HALT's dispatch on `CTRL` (R225). -/
def haltText (p : Params) : Ctrl → List Stmt
  | .homing => homingHaltText
  | .profilePosition => positionHaltText
  | .unbound => baseHaltText p
  | .velocity => baseHaltText p
  | .autoSetup => baseHaltText p
  | .neverHeld _ => []

/-- HALT (R225). -/
def execHalt (s : State) : Result := runCommand .held none (haltText s.params s.ctrl) s

/-- The mode code a controller forces on construction (R228; 30_encoding R116). -/
def bindMode : Ctrl → Int
  | .homing => 6
  | .profilePosition => 1
  | .velocity => 2
  | .autoSetup => -2
  | .unbound => 0
  | .neverHeld _ => 0

/-- `Bind(X, mode)` (R228): SetModeOfOperation, with `CTRL <- X` at a successful end and `CTRL <- None` at a failed
one. -/
def runBind (c : Ctrl) (s : State) : Result := runCommand .any (some c) (setModeText (bindMode c)) s

/-- BIND_HOMING (R228). -/
def execBindHoming (s : State) : Result := runBind .homing s

/-- BIND_PROFILE_POSITION (R228). -/
def execBindProfilePosition (s : State) : Result := runBind .profilePosition s

/-- BIND_VELOCITY (R228). -/
def execBindVelocity (s : State) : Result := runBind .velocity s

/-- BIND_AUTO_SETUP (R228). -/
def execBindAutoSetup (s : State) : Result := runBind .autoSetup s

/-- UNBIND: `CTRL <- None; return Ok`, no bus access (R229). -/
def execUnbind (s : State) : Result := runCommand .any (some .unbound) [] s

end Sys2Proof.Machine
end

