-- ==== Sys2Proof/Machine/PowerStateMachine.lean ====
section
/-! DEFINITION. The power-state machine commands (spec/41_power_state_machine.md). -/

namespace Sys2Proof.Machine

/-- CURRENT_STATE (R170). -/
def currentStateText : List Stmt := [.act (.read .sw), .test .currentStateResult]

def execCurrentState (s : State) : Result := runCommand .any none currentStateText s

/-- ENABLE_OPERATION (R172). -/
def execEnableOperation (s : State) : Result := runCommand .any none enableText s

/-- DISABLE_OPERATION (R178). -/
def execDisableOperation (s : State) : Result := runCommand .any none disableText s

/-- SHUTDOWN (R181). -/
def shutdownText : List Stmt := [.act (.read .sw), .test .shutdownState]

def execShutdown (s : State) : Result := runCommand .any none shutdownText s

/-- QUICK_STOP (R184). -/
def quickStopText : List Stmt :=
  [.act (.read .sw), .test .quickStopState, .act (.read .sw), .test .quickStopRecheck]

def execQuickStop (s : State) : Result := runCommand .any none quickStopText s

end Sys2Proof.Machine
end

