-- ==== Sys2Proof/Machine/ProfilePosition.lean ====
section
/-! DEFINITION. The profiled-position controller (spec/44_profile_position.md). Every command here needs
`CTRL = ProfilePosition` (R105). PositionHalt (R280) is with HALT in Machine/MotionBase.lean. -/

namespace Sys2Proof.Machine

/-- `CW_PP_TARGET(rel)` (spec/40_codec.md R165). -/
def ppTarget (rel : Bool) : CwOp := if rel then .ppTargetRel else .ppTargetAbs

/-- `SetTargetPosition(value, rel)` (R271). -/
def setTargetPositionText (p : Params) (value : Word) (rel : Bool) : List Stmt :=
  cwText (ppTarget rel) ++ [.act (.write .lswOption p.lswOptQsSod), .act (.write .targetPosition value)]

/-- SET_TARGET_POSITION (R271). -/
def execSetTargetPosition (value : Int) (rel : Bool) (s : State) : Result :=
  runCommand (.needs .profilePosition) none (setTargetPositionText s.params (BitVec.ofInt 32 value) rel) s

/-- SET_PROFILE_VELOCITY (R273). -/
def execSetProfileVelocity (speed : Word) (s : State) : Result :=
  runCommand (.needs .profilePosition) none [.act (.write .profileVelocity speed)] s

/-- SET_PROFILE_ACCELERATION (R274). -/
def execSetProfileAcceleration (acc : Word) (s : State) : Result :=
  runCommand (.needs .profilePosition) none [.act (.write .profileAccel acc)] s

/-- `StartPositioning()` (R275): the strobe first, then EnableOperation; no extra control-word read. -/
def startPositioningText : List Stmt := cwText .ppStart ++ enableText

/-- START_POSITIONING (R275). -/
def execStartPositioning (s : State) : Result := runCommand (.needs .profilePosition) none startPositioningText s

/-- `SetUserUnitsPositioning(unit, exp)` (R277). -/
def setPosUnitsText (unit exponent : Byte) : List Stmt :=
  disableText ++ [.act (.read .posUnits), .test (.packPos unit exponent), .act (.writeWorking .posUnits)]

/-- SET_USER_UNITS_POSITIONING (R277). -/
def execSetUserUnitsPositioning (unit exponent : Byte) (s : State) : Result :=
  runCommand (.needs .profilePosition) none (setPosUnitsText unit exponent) s

/-- `GetUserUnitsPositioning()` (R278): disables first, then only reads. -/
def getPosUnitsText : List Stmt := disableText ++ [.act (.read .posUnits), .test .posUnitsResult]

/-- GET_USER_UNITS_POSITIONING (R278). -/
def execGetUserUnitsPositioning (s : State) : Result := runCommand (.needs .profilePosition) none getPosUnitsText s

end Sys2Proof.Machine
end

