-- ==== Sys2Proof/Machine/Velocity.lean ====
section
/-! DEFINITION. The velocity ramper (spec/45_velocity.md). Every command here needs `CTRL = Velocity` (R105). HALT
under Velocity is the base halt (spec/42_motion_base.md R225). -/

namespace Sys2Proof.Machine

/-- SET_TARGET_VELOCITY (R300). -/
def execSetTargetVelocity (vel : Int) (s : State) : Result :=
  runCommand (.needs .velocity) none [.act (.write .targetVelocity (BitVec.ofInt 32 vel))] s

/-- SET_VELOCITY_ACCELERATION (R301): deltaSpeed, then deltaTime. -/
def execSetVelocityAcceleration (deltaSpeed deltaTime : Word) (s : State) : Result :=
  runCommand (.needs .velocity) none [.act (.write .velAccDs deltaSpeed), .act (.write .velAccDt deltaTime)] s

/-- A ramp pair read into `RES[0]` and `RES[1]` (R302, R304). -/
def getPairText (ds dt : RegName) : List Stmt :=
  [.act (.read ds), .test (.stage 0), .act (.read dt), .test (.stage 1)]

/-- GET_VELOCITY_ACCELERATION (R302). -/
def execGetVelocityAcceleration (s : State) : Result :=
  runCommand (.needs .velocity) none (getPairText .velAccDs .velAccDt) s

/-- SET_VELOCITY_DECELERATION (R303). -/
def execSetVelocityDeceleration (deltaSpeed deltaTime : Word) (s : State) : Result :=
  runCommand (.needs .velocity) none [.act (.write .velDecDs deltaSpeed), .act (.write .velDecDt deltaTime)] s

/-- GET_VELOCITY_DECELERATION (R304). -/
def execGetVelocityDeceleration (s : State) : Result :=
  runCommand (.needs .velocity) none (getPairText .velDecDs .velDecDt) s

/-- `StartVelocity()` (R305): the limit-switch option, the halt bit cleared, then EnableOperation. -/
def startVelocityText (p : Params) : List Stmt :=
  .act (.write .lswOption p.lswOptQsSod) :: (cwText .haltClear ++ enableText)

/-- START_VELOCITY (R305). -/
def execStartVelocity (s : State) : Result := runCommand (.needs .velocity) none (startVelocityText s.params) s

/-- `SetUserUnitsVelocity(unit, exp, tb)` (R307). -/
def setVelUnitsText (unit exponent timebase : Byte) : List Stmt :=
  disableText ++ [.act (.read .velUnits), .test (.packVel unit exponent timebase), .act (.writeWorking .velUnits)]

/-- SET_USER_UNITS_VELOCITY (R307). -/
def execSetUserUnitsVelocity (unit exponent timebase : Byte) (s : State) : Result :=
  runCommand (.needs .velocity) none (setVelUnitsText unit exponent timebase) s

/-- `GetUserUnitsVelocity()` (R308). -/
def getVelUnitsText : List Stmt := disableText ++ [.act (.read .velUnits), .test .velUnitsResult]

/-- GET_USER_UNITS_VELOCITY (R308). -/
def execGetUserUnitsVelocity (s : State) : Result := runCommand (.needs .velocity) none getVelUnitsText s

end Sys2Proof.Machine
end

