-- ==== Sys2Proof/Machine/Dispatch.lean ====
section
/-! DEFINITION. The meaning of every instruction, one arm each. -/

namespace Sys2Proof.Machine

def exec (i : Instr) (s : State) : Host.Outcome State Fault Refusal :=
  match i with
  | .currentState => Sys2Proof.Machine.execCurrentState s
  | .enableOperation => Sys2Proof.Machine.execEnableOperation s
  | .disableOperation => Sys2Proof.Machine.execDisableOperation s
  | .shutdown => Sys2Proof.Machine.execShutdown s
  | .quickStop => Sys2Proof.Machine.execQuickStop s
  | .setModeOfOperation mode => Sys2Proof.Machine.execSetModeOfOperation mode s
  | .getModeOfOperation => Sys2Proof.Machine.execGetModeOfOperation s
  | .setMotorParameters polePairCount ratedCurrent maxCurrent maxCurrentDuration idleCurrent driveMode => Sys2Proof.Machine.execSetMotorParameters polePairCount ratedCurrent maxCurrent maxCurrentDuration idleCurrent driveMode s
  | .getMotorParameters => Sys2Proof.Machine.execGetMotorParameters s
  | .saveGroup groupId => Sys2Proof.Machine.execSaveGroup groupId s
  | .setUserUnitsFeed feedNumerator shaftRevolutions => Sys2Proof.Machine.execSetUserUnitsFeed feedNumerator shaftRevolutions s
  | .getPositionActual => Sys2Proof.Machine.execGetPositionActual s
  | .getSpeedActual => Sys2Proof.Machine.execGetSpeedActual s
  | .getVelocityActual => Sys2Proof.Machine.execGetVelocityActual s
  | .getVelocityDemanded => Sys2Proof.Machine.execGetVelocityDemanded s
  | .halt => Sys2Proof.Machine.execHalt s
  | .bindHoming => Sys2Proof.Machine.execBindHoming s
  | .bindProfilePosition => Sys2Proof.Machine.execBindProfilePosition s
  | .bindVelocity => Sys2Proof.Machine.execBindVelocity s
  | .bindAutoSetup => Sys2Proof.Machine.execBindAutoSetup s
  | .unbind => Sys2Proof.Machine.execUnbind s
  | .setHomingSpeed speedToZero speedToSwitch => Sys2Proof.Machine.execSetHomingSpeed speedToZero speedToSwitch s
  | .setHomingMode method => Sys2Proof.Machine.execSetHomingMode method s
  | .setHomingAcceleration acc => Sys2Proof.Machine.execSetHomingAcceleration acc s
  | .startHoming => Sys2Proof.Machine.execStartHoming s
  | .home speedToZero speedToSwitch => Sys2Proof.Machine.execHome speedToZero speedToSwitch s
  | .getHomingState => Sys2Proof.Machine.execGetHomingState s
  | .setTargetPosition value rel => Sys2Proof.Machine.execSetTargetPosition value rel s
  | .setProfileVelocity speed => Sys2Proof.Machine.execSetProfileVelocity speed s
  | .setProfileAcceleration acc => Sys2Proof.Machine.execSetProfileAcceleration acc s
  | .startPositioning => Sys2Proof.Machine.execStartPositioning s
  | .setUserUnitsPositioning unit exponent => Sys2Proof.Machine.execSetUserUnitsPositioning unit exponent s
  | .getUserUnitsPositioning => Sys2Proof.Machine.execGetUserUnitsPositioning s
  | .setTargetVelocity vel => Sys2Proof.Machine.execSetTargetVelocity vel s
  | .setVelocityAcceleration deltaSpeed deltaTime => Sys2Proof.Machine.execSetVelocityAcceleration deltaSpeed deltaTime s
  | .getVelocityAcceleration => Sys2Proof.Machine.execGetVelocityAcceleration s
  | .setVelocityDeceleration deltaSpeed deltaTime => Sys2Proof.Machine.execSetVelocityDeceleration deltaSpeed deltaTime s
  | .getVelocityDeceleration => Sys2Proof.Machine.execGetVelocityDeceleration s
  | .startVelocity => Sys2Proof.Machine.execStartVelocity s
  | .setUserUnitsVelocity unit exponent timebase => Sys2Proof.Machine.execSetUserUnitsVelocity unit exponent timebase s
  | .getUserUnitsVelocity => Sys2Proof.Machine.execGetUserUnitsVelocity s
  | .autoSetupMotorParameters => Sys2Proof.Machine.execAutoSetupMotorParameters s
  | .cwShutdown => Sys2Proof.Machine.execCwShutdown s
  | .cwSwitchOn => Sys2Proof.Machine.execCwSwitchOn s
  | .cwEnableOperation => Sys2Proof.Machine.execCwEnableOperation s
  | .cwDisableOperation => Sys2Proof.Machine.execCwDisableOperation s
  | .cwDisableVoltage => Sys2Proof.Machine.execCwDisableVoltage s
  | .cwQuickStop => Sys2Proof.Machine.execCwQuickStop s
  | .cwQsRecover1 => Sys2Proof.Machine.execCwQsRecover1 s
  | .cwFaultResetLow => Sys2Proof.Machine.execCwFaultResetLow s
  | .cwFaultResetHigh => Sys2Proof.Machine.execCwFaultResetHigh s
  | .cwStartSet => Sys2Proof.Machine.execCwStartSet s
  | .cwStartClear => Sys2Proof.Machine.execCwStartClear s
  | .cwHaltSet => Sys2Proof.Machine.execCwHaltSet s
  | .cwHaltClear => Sys2Proof.Machine.execCwHaltClear s
  | .cwPpTargetAbs => Sys2Proof.Machine.execCwPpTargetAbs s
  | .cwPpTargetRel => Sys2Proof.Machine.execCwPpTargetRel s
  | .cwPpStart => Sys2Proof.Machine.execCwPpStart s
  | .cwClearAll => Sys2Proof.Machine.execCwClearAll s

end Sys2Proof.Machine
end

