-- ==== Sys2Proof/Machine/HostPort.lean ====
section
/-! DEFINITION. Which instruction the core runs next, the core's step, and the host's moves on the command and result
ports (spec/10_state.md R32, R35, R36, R50; spec/60_exceptions.md R363). -/

namespace Sys2Proof.Machine

/-- The latched command frame. -/
def State.frame (s : State) : Frame := ⟨s.opc, s.arg⟩

/-- The micro-op whose action a text begins with. -/
def headMicroOp : List Stmt → Option CwOp
  | .act (.cwRead op) :: _ => some op
  | .act (.cwWrite op) :: _ => some op
  | _ => none

/-- The instruction whose action the core makes next: the micro-op the sequencer stands before or in, else the latched
command (DESIGN CHOICE, log entry 14); `none` when no command has that opcode. -/
def current (s : State) : Option Instr :=
  match headMicroOp (s.seq.getD .fresh).todo with
  | some op => some op.instr
  | none => (decodeFrame s.frame).toOption

/-- One step of a BUSY core. An opcode that is not assigned is refused at issue with `IllegalCommand`
(spec/30_encoding.md R105, R120); after that the opcode is not looked at again (DEDUCED, log entry 25). -/
def coreStep (s : State) : Result :=
  match current s with
  | some i => exec i s
  | none =>
    match (s.seq.getD .fresh).step with
    | .issued => .next (raise (.protocol .illegalCommand) .fresh s)
    | .before todo => advance todo (s.seq.getD .fresh) s

/-- The core's part of a step: one action while BUSY; "it does nothing until the host issues" a command while IDLE
(R390). -/
def coreTurn (s : State) : Result :=
  match s.port with
  | .busy => coreStep s
  | .idle => .next s

/-- Issuing a command latches `OPC` and `ARG`, sets `PORT <- BUSY` and creates the sequencer step (R35, R36). -/
def issue (f : Frame) (s : State) : State :=
  { s with opc := f.opc, arg := f.arg, port := .busy, seq := some .fresh }

/-- A host write to the command port that is no issue: it sets `OPC` and `ARG` while IDLE and "has no effect" while
BUSY (R363; the IDLE case DEDUCED, log entry 11). -/
def writePort (f : Frame) (s : State) : State :=
  match s.port with
  | .idle => { s with opc := f.opc, arg := f.arg }
  | .busy => s

/-- A host read of the result port: before the first completion it is "a fault, not ... zero" (spec/10_state.md R50,
spec/93_implementation_defined.md I9). -/
def hostRead (seen : HostSeen) (s : State) : Result :=
  if s.completed then .next { s with hostSeen := s.hostSeen ++ [seen] } else .fault .hostReadBeforeCompletion

/-- One step when the host's next move is `m` and `rest` follows. The host waits for IDLE before it issues. -/
def hostTurn (m : HostMove) (rest : List HostMove) (s : State) : Result :=
  match m with
  | .issue f =>
    match s.port with
    | .busy => coreStep s
    | .idle => .next (issue f { s with host := rest })
  | .awaitIdle =>
    match s.port with
    | .busy => coreStep s
    | .idle => .next { s with host := rest }
  | .pass => coreTurn { s with host := rest }
  | .writePort f => .next (writePort f { s with host := rest })
  | .readStatus => hostRead (.status s.status) { s with host := rest }
  | .readRes k => hostRead (.res k (s.res.get k)) { s with host := rest }

/-- One step of the machine: the host's next move, or the core's when the host has none. -/
def machineStep (s : State) : Result :=
  match s.host with
  | [] => coreTurn s
  | m :: rest => hostTurn m rest s

/-- `s` with the instruction of a table word about to make its first action and no host move in the way: the frame
issued, or the sequencer before the micro-op (DESIGN CHOICE, log entry 13). -/
def placeTableWord (s : State) (nbits w : Nat) : State :=
  match readTableWord nbits w with
  | .frame f => { issue f s with host := [] }
  | .microOp op =>
    { s with port := .busy, seq := some { Sequencer.fresh with step := .before (cwText op) }, host := [] }

end Sys2Proof.Machine
end

