-- ==== Sys2Proof/Safety.lean ====
section
/-! DEFINITION. The terms in which claims about runs are made: the launch premise, what the core may do to the drive's
registers, the invariants of the state, and running one command. -/

namespace Sys2Proof.Machine

/-! ## Launch -/

/-- The part of `CleanLaunch` that is core state (spec/70_reset_and_hazards.md R394): nothing bound, PORT IDLE, no
command in flight. -/
def CleanLaunch (s : State) : Prop := s.ctrl = .unbound ∧ s.port = .idle ∧ s.seq = none

/-- A command has just been issued and has made no action (R35, R36). -/
def Issued (s : State) : Prop := s.port = .busy ∧ s.seq = some .fresh

/-! ## What the core may do to the drive (spec/10_state.md R39 to R49) -/

/-- The registers some command reads. -/
def coreReads : RegName → Bool
  | .cw | .sw | .mode | .driveMode | .polePairs | .ratedCurrent | .maxCurrent | .maxCurrentDuration => true
  | .idleCurrent | .save _ | .posActual | .speedActual | .velActual | .velDemand | .posUnits | .velUnits => true
  | .velAccDs | .velAccDt | .velDecDs | .velDecDt => true
  | .feedNum | .feedDen | .haltOption | .lswOption | .homingMethod | .homingSpeedSwitch => false
  | .homingSpeedZero | .homingAccel | .targetPosition | .profileVelocity | .profileAccel | .targetVelocity => false

/-- The registers some command writes: not the status word (R40), nor the actual values (R48). -/
def coreWrites : RegName → Bool
  | .sw | .posActual | .speedActual | .velActual | .velDemand => false
  | .cw | .mode | .driveMode | .polePairs | .ratedCurrent | .maxCurrent | .maxCurrentDuration => true
  | .idleCurrent | .save _ | .posUnits | .velUnits | .velAccDs | .velAccDt | .velDecDs | .velDecDt => true
  | .feedNum | .feedDen | .haltOption | .lswOption | .homingMethod | .homingSpeedSwitch => true
  | .homingSpeedZero | .homingAccel | .targetPosition | .profileVelocity | .profileAccel | .targetVelocity => true

/-- An action a command's text may hold. The control word is read and written by micro-ops only
(spec/40_codec.md R140); a wait has one of the two poll intervals (spec/60_exceptions.md R375). -/
def Act.Legal (p : Params) : Act → Prop
  | .read r => coreReads r = true ∧ r ≠ .cw
  | .write r _ => coreWrites r = true ∧ r ≠ .cw
  | .writeWorking r => r = .driveMode ∨ r = .posUnits ∨ r = .velUnits
  | .wait ms => ms = p.savePollMs ∨ ms = p.autoSetupPollMs
  | .cwRead op => op ≠ .clearAll
  | .cwWrite _ => True

def Stmt.Legal (p : Params) : Stmt → Prop
  | .act a => a.Legal p
  | .test _ => True

/-- An event the core may record: a read or write of one of its registers, with the instance's handle and the
register's address and width, or a wait of one of the two intervals (spec/20_memory.md R72, R73). -/
def Event.Legal (p : Params) (dev : DeviceHandle) : Event → Prop
  | .read d a w _ =>
    d = dev ∧ ∃ r, coreReads r = true ∧ a = (regParam p r).addr ∧ w = (regParam p r).width
  | .readFailed d a w =>
    d = dev ∧ ∃ r, coreReads r = true ∧ a = (regParam p r).addr ∧ w = (regParam p r).width
  | .write d a w v =>
    d = dev ∧ ∃ r, coreWrites r = true ∧ a = (regParam p r).addr ∧ w = (regParam p r).width ∧ lowBits w v = v
  | .writeFailed d a w v =>
    d = dev ∧ ∃ r, coreWrites r = true ∧ a = (regParam p r).addr ∧ w = (regParam p r).width ∧ lowBits w v = v
  | .wait ms => ms = p.savePollMs ∨ ms = p.autoSetupPollMs

/-- The event is a write to the address, done or failed. -/
def Event.writesTo (a : OdAddr) : Event → Prop
  | .write _ b _ _ => b = a
  | .writeFailed _ b _ _ => b = a
  | .read .. => False
  | .readFailed .. => False
  | .wait _ => False

/-- No register the core writes lies at the status word's address. A drive whose parameters break this gives one
object two names. -/
def StatusApart (p : Params) : Prop := ∀ r, coreWrites r = true → (regParam p r).addr ≠ (regParam p .sw).addr

/-! ## Invariants -/

/-- `CTRL` is one of the values R34 names as held. -/
def Ctrl.Held : Ctrl → Prop
  | .neverHeld _ => False
  | _ => True

/-- The sequencer step and temporaries exist exactly while a command runs (spec/10_state.md R36, R50). -/
def HandshakeInv (s : State) : Prop := s.port = .busy ↔ s.seq.isSome = true

/-- `CTRL`, and what a running BIND_* will write to it, is a held value (R34). -/
def CtrlInv (s : State) : Prop :=
  s.ctrl.Held ∧ ∀ q, s.seq = some q → ∀ c, q.bind = some c → c.Held

/-- The text still to come is legal, and the fault counter has not passed the retries (R37). -/
def TextInv (s : State) : Prop :=
  ∀ q, s.seq = some q → (∀ st ∈ q.todo, st.Legal s.params) ∧ q.faults ≤ s.params.faultResetRetries

/-- Every event recorded so far is legal. -/
def TraceInv (s : State) : Prop := ∀ e ∈ s.trace, e.Legal s.params s.dev

/-- `STATUS` holds a code of R106. -/
def StatusInv (s : State) : Prop :=
  s.status = statusOk ∨ s.status = statusIoError ∨ ∃ e, s.status = protocolCode e

/-! ## Running one command -/

/-- `n` steps of the instruction `i`. -/
def runExec (i : Instr) : Nat → State → Result
  | 0, s => .next s
  | n + 1, s =>
    match exec i s with
    | .next t => runExec i n t
    | .fault f => .fault f
    | .refused r => .refused r

/-- `n` steps of the machine. -/
def runSteps : Nat → State → Result
  | 0, s => .next s
  | n + 1, s =>
    match step s with
    | .next t => runSteps n t
    | .fault f => .fault f
    | .refused r => .refused r

/-- What a command that ended in success has changed, and nothing else: the answers and timer reports it used, its
events, `STATUS`, `RES`, `CTRL`, and that it has ended (R32, R35). -/
def succeeded (s : State) (more : List Answer) (timerLeft : Nat) (es : List Event) (res : Bank) (ctrl : Ctrl) : State :=
  { s with
    bus := more
    timer := timerLeft
    trace := s.trace ++ es
    status := 0x00
    res := res
    ctrl := ctrl
    port := .idle
    seq := none
    completed := true }

/-- What a command that ended in an error has changed, and nothing else (spec/60_exceptions.md R355). -/
def failed (s : State) (more : List Answer) (timerLeft : Nat) (es : List Event) (status : Byte) (res : Bank)
    (ctrl : Ctrl) : State :=
  { s with
    bus := more
    timer := timerLeft
    trace := s.trace ++ es
    status := status
    res := res
    ctrl := ctrl
    port := .idle
    seq := none
    completed := true }

/-- The event of a read of `r` that returned `x`. -/
def readEvent (s : State) (r : RegName) (x : DWord) : Event :=
  .read s.dev (regParam s.params r).addr (regParam s.params r).width
    (lowBits (regParam s.params r).width (x.setWidth 32))

/-- The event of a write of `x` to `r`. -/
def writeEvent (s : State) (r : RegName) (x : Word) : Event :=
  .write s.dev (regParam s.params r).addr (regParam s.params r).width (lowBits (regParam s.params r).width x)

/-- The value a read of `r` that returned `x` gives the core. -/
def readValue (s : State) (r : RegName) (x : DWord) : Word := narrow (regParam s.params r) x

/-- The control word that `op` writes when the collaborator answered its control-word read with `x`. -/
def cwWritten (s : State) (op : CwOp) (x : DWord) : HalfWord := cwWord op (word16 (readValue s .cw x))

/-- The two events of a micro-op whose control-word read was answered with `x`. -/
def cwEvents (s : State) (op : CwOp) (x : DWord) : List Event :=
  [readEvent s .cw x, writeEvent s .cw ((cwWritten s op x).setWidth 32)]

/-- The power state that a status read answered with `x` shows. -/
def stateShown (s : State) (x : DWord) : Option PowerState :=
  decodeState s.params.stateTemplates (word16 (readValue s .sw x))

/-- The event of a read of `r` that failed. -/
def readFailedEvent (s : State) (r : RegName) : Event :=
  .readFailed s.dev (regParam s.params r).addr (regParam s.params r).width

/-- The event of a write of `x` to `r` that failed. -/
def writeFailedEvent (s : State) (r : RegName) (x : Word) : Event :=
  .writeFailed s.dev (regParam s.params r).addr (regParam s.params r).width (lowBits (regParam s.params r).width x)

/-- The end of a command with no error or a protocol error: success with the results `res` and the binding `ctrl`, or
the error's code with `RES` and `CTRL` unchanged (R353, R355). -/
def ended (s : State) (more : List Answer) (timerLeft : Nat) (es : List Event) (res : Bank) (ctrl : Ctrl) :
    Option ProtocolError → State
  | none => succeeded s more timerLeft es res ctrl
  | some e => failed s more timerLeft es (protocolCode e) s.res s.ctrl

/-! ## The gate (spec/30_encoding.md R105) -/

/-- The controller that an opcode's family needs: `some none` for the families any `CTRL` may use, `none` for a family
that is never allowed. -/
def familyNeeds (opc : Byte) : Option (Option Ctrl) :=
  match opc.toNat / 16 with
  | 1 | 2 | 3 => some none
  | 4 => some (some .homing)
  | 5 => some (some .profilePosition)
  | 6 => some (some .velocity)
  | 7 => some (some .autoSetup)
  | _ => none

/-- The gate lets the opcode pass: its family is one any `CTRL` may use, or `CTRL` is the controller it needs. -/
def GateOpen (opc : Byte) (ctrl : Ctrl) : Prop :=
  familyNeeds opc = some none ∨ familyNeeds opc = some (some ctrl)

/-- The opcodes of R101. -/
def assignedOpcodes : List Byte :=
  [0x10, 0x11, 0x12, 0x13, 0x14, 0x20, 0x21, 0x22, 0x23, 0x24, 0x25, 0x26, 0x27, 0x28, 0x29, 0x2A, 0x30, 0x31, 0x32,
    0x33, 0x34, 0x40, 0x41, 0x42, 0x43, 0x44, 0x45, 0x50, 0x51, 0x52, 0x53, 0x54, 0x55, 0x60, 0x61, 0x62, 0x63, 0x64,
    0x65, 0x66, 0x67, 0x70]

/-- How many bits of `ARG[k]` a command reads (R100, R104). -/
def operandBits (opc : Byte) (k : Fin 6) : Nat :=
  match opc.toNat, k.val with
  | 0x20, 0 => 8
  | 0x22, 5 => 8
  | 0x22, _ => 32
  | 0x24, 0 => 8
  | 0x25, 0 | 0x25, 1 => 32
  | 0x40, 0 | 0x40, 1 => 32
  | 0x41, 0 => 32
  | 0x42, 0 => 32
  | 0x44, 0 | 0x44, 1 => 32
  | 0x50, 0 => 32
  | 0x50, 1 => 1
  | 0x51, 0 => 32
  | 0x52, 0 => 32
  | 0x54, 0 | 0x54, 1 => 8
  | 0x60, 0 => 32
  | 0x61, 0 | 0x61, 1 => 32
  | 0x63, 0 | 0x63, 1 => 32
  | 0x66, 0 | 0x66, 1 | 0x66, 2 => 8
  | _, _ => 0

/-! ## Runs of the called rules

What the rules that others call do with the collaborator's answers, as relations over the answers used: read off the
pseudocode of the rules, with no sequencer. -/

/-- The micro-ops a power state makes ENABLE_OPERATION apply, `none` for its error
(spec/41_power_state_machine.md R187). -/
def enableOps : PowerState → Option (List CwOp)
  | .notReadyToSwitchOn => none
  | .switchedOnDisabled => some [.shutdown]
  | .readyToSwitchOn => some [.switchOn]
  | .switchedOn => some [.enableOperation]
  | .operationEnabled => some []
  | .quickStopActive => some [.qsRecover1, .enableOperation]
  | .faultReactionActive => some []
  | .fault => some [.faultResetLow, .faultResetHigh]

/-- The micro-ops a power state makes DISABLE_OPERATION apply (R187). -/
def disableOps : PowerState → Option (List CwOp)
  | .notReadyToSwitchOn => none
  | .operationEnabled => some [.disableOperation]
  | .fault => some [.faultResetLow, .faultResetHigh]
  | _ => some []

/-- The micro-ops a power state makes SHUTDOWN apply (R187). -/
def shutdownOps : PowerState → Option (List CwOp)
  | .notReadyToSwitchOn => none
  | .switchedOnDisabled => some [.shutdown]
  | .readyToSwitchOn => some []
  | .switchedOn => some [.shutdown]
  | .operationEnabled => some [.shutdown]
  | .quickStopActive => some [.disableVoltage]
  | .faultReactionActive => some []
  | .fault => some [.faultResetLow, .faultResetHigh]

/-- The micro-ops a power state makes QUICK_STOP apply (R187). -/
def quickStopOps : PowerState → List CwOp
  | .operationEnabled => [.quickStop]
  | _ => []

/-- `CwRun s ops b es`: the read-modify-writes `ops`, one after the other, use the answers `b` and record `es`
(spec/40_codec.md R142). -/
inductive CwRun (s : State) : List CwOp → List Answer → List Event → Prop
  | nil : CwRun s [] [] []
  | cons (op : CwOp) (ops : List CwOp) (x y : DWord) (b : List Answer) (es : List Event) :
      op ≠ .clearAll → CwRun s ops b es →
      CwRun s (op :: ops) (.ok x :: .ok y :: b) (cwEvents s op x ++ es)

/-- How a re-read that must not show OperationEnabled ends the rule, with the error `e` when it does. -/
def rereadEnd (e : ProtocolError) : Option PowerState → Option ProtocolError
  | none => some .unknownState
  | some .operationEnabled => some e
  | some _ => none

/-- `DisableRun s b es r`: `DisableOperation()` with the answers `b` records `es` and ends with `r`
(spec/41_power_state_machine.md R178). -/
inductive DisableRun (s : State) : List Answer → List Event → Option ProtocolError → Prop
  | unknown (x : DWord) : stateShown s x = none →
      DisableRun s [.ok x] [readEvent s .sw x] (some .unknownState)
  | notReady (x : DWord) : stateShown s x = some .notReadyToSwitchOn →
      DisableRun s [.ok x] [readEvent s .sw x] (some .notReadyToSwitchOn)
  | reread (x z : DWord) (p : PowerState) (ops : List CwOp) (b : List Answer) (es : List Event) :
      stateShown s x = some p → disableOps p = some ops → CwRun s ops b es →
      DisableRun s (.ok x :: (b ++ [.ok z])) (readEvent s .sw x :: (es ++ [readEvent s .sw z]))
        (rereadEnd .couldNotDisable (stateShown s z))

/-- `EnableRun s prev faults b es r`: the loop of `EnableOperation()`, entered with `prev` and `faults`, uses the
answers `b`, records `es` and ends with `r` (R172 to R176). -/
inductive EnableRun (s : State) : Option PowerState → Nat → List Answer → List Event → Option ProtocolError → Prop
  | unknown (prev : Option PowerState) (faults : Nat) (x : DWord) : stateShown s x = none →
      EnableRun s prev faults [.ok x] [readEvent s .sw x] (some .unknownState)
  | notReady (prev : Option PowerState) (faults : Nat) (x : DWord) : stateShown s x = some .notReadyToSwitchOn →
      prev ≠ some .notReadyToSwitchOn →
      EnableRun s prev faults [.ok x] [readEvent s .sw x] (some .notReadyToSwitchOn)
  | settled (faults : Nat) (x : DWord) : stateShown s x = some .operationEnabled →
      EnableRun s (some .operationEnabled) faults [.ok x] [readEvent s .sw x] none
  | stalled (p : PowerState) (faults : Nat) (x : DWord) : stateShown s x = some p → p ≠ .fault →
      p ≠ .operationEnabled → EnableRun s (some p) faults [.ok x] [readEvent s .sw x] s.params.enableStallResult
  | thirdFault (prev : Option PowerState) (faults : Nat) (x : DWord) (b : List Answer) (es : List Event) :
      stateShown s x = some .fault → faults + 1 = s.params.faultResetRetries + 1 →
      CwRun s [.faultResetLow, .faultResetHigh] b es →
      EnableRun s prev faults (.ok x :: b) (readEvent s .sw x :: es) (some .faultNotCleared)
  | fault (prev : Option PowerState) (faults : Nat) (x : DWord) (b c : List Answer) (es fs : List Event)
      (r : Option ProtocolError) :
      stateShown s x = some .fault → faults + 1 ≠ s.params.faultResetRetries + 1 →
      CwRun s [.faultResetLow, .faultResetHigh] b es → EnableRun s (some .fault) (faults + 1) c fs r →
      EnableRun s prev faults (.ok x :: (b ++ c)) (readEvent s .sw x :: (es ++ fs)) r
  | turn (prev : Option PowerState) (faults : Nat) (x : DWord) (p : PowerState) (ops : List CwOp) (b c : List Answer)
      (es fs : List Event) (r : Option ProtocolError) :
      stateShown s x = some p → p ≠ .fault → prev ≠ some p → enableOps p = some ops → CwRun s ops b es →
      EnableRun s (some p) faults c fs r →
      EnableRun s prev faults (.ok x :: (b ++ c)) (readEvent s .sw x :: (es ++ fs)) r

/-- ENABLE_OPERATION stands at the head of its loop: just issued, or before its next status read, whatever it has
observed before. -/
def AtEnableLoop (s : State) : Prop :=
  Issued s ∨ ∃ q, s.seq = some q ∧ q.step = .before enableText ∧ q.prev ≠ some .notReadyToSwitchOn ∧
    q.faults ≤ s.params.faultResetRetries

/-- How the loop ends on a drive whose status word always shows `st` (R173 to R175). -/
def enableEndAt (s : State) : Option PowerState → Option ProtocolError
  | none => some .unknownState
  | some .notReadyToSwitchOn => some .notReadyToSwitchOn
  | some .operationEnabled => none
  | some .fault => some .faultNotCleared
  | some _ => s.params.enableStallResult

/-- `STATUS` after an end with no error or a protocol error (spec/30_encoding.md R106). -/
def endStatus : Option ProtocolError → Byte
  | none => 0x00
  | some e => protocolCode e

/-- `StartHomingRun s b es r`: `StartHoming()` with the answers `b` records `es` and ends with `r`
(spec/43_homing.md R246). -/
inductive StartHomingRun (s : State) : List Answer → List Event → Option ProtocolError → Prop
  | unknown (x : DWord) : decodeHoming (word16 (readValue s .sw x)) = none →
      StartHomingRun s [.ok x] [readEvent s .sw x] (some .unknownHomingState)
  | run (x w c d : DWord) (h : HomingState) (a b : List Answer) (es fs : List Event) (r : Option ProtocolError) :
      decodeHoming (word16 (readValue s .sw x)) = some h →
      CwRun s (if h = .inProgress then [.startClear] else []) a es → EnableRun s none 0 b fs r →
      StartHomingRun s (.ok x :: (a ++ .ok w :: .ok c :: .ok d :: b))
        (readEvent s .sw x :: (es ++ writeEvent s .lswOption s.params.lswOptRecordOnly ::
          (cwEvents s .startSet c ++ fs))) r

/-- The answers to `xs.length` reads. -/
def answers (xs : List DWord) : List Answer := xs.map .ok

/-- The events of the failing turns of a poll of `r`: each a read and a wait of `ms` (spec/40_codec.md R160). -/
def pollEvents (s : State) (r : RegName) (ms : Nat) (xs : List DWord) : List Event :=
  xs.flatMap (fun x => [readEvent s r x, .wait ms])

/-- No read of `xs` satisfies the predicate of the poll `k`. -/
def NoneDone (s : State) (k : Poll) (xs : List DWord) : Prop :=
  ∀ x ∈ xs, pollDone (readValue s (pollReg k) x) k = false

/-- The status word that a read answered with `x` shows. -/
def statusWord (s : State) (x : DWord) : HalfWord := word16 (readValue s .sw x)

/-- The commands whose text begins with "disables operation" (spec/42_motion_base.md R200), SET_MODE_OF_OPERATION and
BIND_*, which read the mode first, apart. -/
def disablesFirst : Instr → Bool
  | .setMotorParameters .. | .saveGroup _ | .setUserUnitsFeed .. | .setUserUnitsPositioning .. => true
  | .getUserUnitsPositioning | .setUserUnitsVelocity .. | .getUserUnitsVelocity | .disableOperation => true
  | _ => false

/-- The gate lets the command pass: a mode command has its own controller, HALT has one that can be held (R105, R225). -/
def Admitted (i : Instr) (s : State) : Prop :=
  match encode i with
  | .command f => GateOpen f.opc s.ctrl ∧ (i = .halt → s.ctrl.Held)
  | .microOp _ _ => False

end Sys2Proof.Machine
end

