-- ==== Sys2Proof/Certificates/Slice0/Obligations.lean ====
section
/-! DEFINITION. The statements for the provers. Each docstring names the rule of spec/ it formalises. The terms they
use are in Sys2Proof/Safety.lean: `Issued s` is a command just issued; `runExec i n s` is `n` actions of `i`;
`succeeded`, `failed` and `ended` change the fields they name and no other, so they are also the frames. -/

open Sys2Proof Sys2Proof.Machine

/-! ## Encoding -/

/-- Decoding the code of a well-formed instruction gives it back; `CW_DISABLE_OPERATION` comes back as `CW_SWITCH_ON`,
whose pattern it shares (R100 to R104, R146). -/
def Obligations.DecodeOfEncode : Prop :=
  ∀ i : Instr, i.WellFormed → decode (encode i) = .ok i.decoded

/-- A decoded command is well-formed, and its encoding has the frame's opcode, the frame's operand fields and 0 in every
other bit: no bit outside the fields of R104 was read (R103, R104, R120). -/
def Obligations.EncodeOfDecode : Prop :=
  ∀ (f : Frame) (i : Instr), decodeFrame f = .ok i →
    i.WellFormed ∧ ∃ g, encode i = .command g ∧ g.opc = f.opc ∧
      ∀ k : Fin 6, (g.arg.get k).toNat = (f.arg.get k).toNat % 2 ^ operandBits f.opc k

/-- The opcodes of R101 and no others are commands; a frame with another opcode is rejected by name, and issuing it ends
at once with `IllegalCommand` and no bus access (R101, R105, R120). -/
def Obligations.UnassignedOpcodesRefused : Prop :=
  (∀ f : Frame, (∃ i, decodeFrame f = .ok i) ↔ f.opc ∈ assignedOpcodes) ∧
  (∀ f : Frame, f.opc ∉ assignedOpcodes → decodeFrame f = .error (.unassignedOpcode f.opc)) ∧
  ∀ s : State, Issued s → s.host = [] → s.opc ∉ assignedOpcodes →
    step s = .next (failed s s.bus s.timer [] 0x02 s.res s.ctrl)

/-- Words written out from the tables of R101, R102 and R104 decode to the instructions they stand for. -/
def Obligations.HandWrittenCodes : Prop :=
  decode (.command ⟨0x13, ⟨0, 0, 0, 0, 0, 0⟩⟩) = .ok .shutdown ∧
  decode (.command ⟨0x20, ⟨0x000000FE, 0, 0, 0, 0, 0⟩⟩) = .ok (.setModeOfOperation (-2)) ∧
  decode (.command ⟨0x22, ⟨50, 1800, 1800, 100, 900, 0x00000041⟩⟩) = .ok (.setMotorParameters 50 1800 1800 100 900 0x41) ∧
  decode (.command ⟨0x30, ⟨0, 0, 0, 0, 0, 0⟩⟩) = .ok .bindHoming ∧
  decode (.command ⟨0x44, ⟨10, 50, 0, 0, 0, 0⟩⟩) = .ok (.home 10 50) ∧
  decode (.command ⟨0x50, ⟨0xFFFFF830, 1, 0, 0, 0, 0⟩⟩) = .ok (.setTargetPosition (-2000) true) ∧
  decode (.command ⟨0x66, ⟨0xA4, 0x00, 0x03, 0, 0, 0⟩⟩) = .ok (.setUserUnitsVelocity 0xA4 0x00 0x03) ∧
  decode (.command ⟨0x70, ⟨0, 0, 0, 0, 0, 0⟩⟩) = .ok .autoSetupMotorParameters ∧
  decode (.microOp 0x0087 0x0006) = .ok .cwShutdown ∧
  decode (.microOp 0x0130 0x0030) = .ok .cwPpStart ∧
  decode (.microOp 0xFFFF 0x0000) = .ok .cwClearAll

/-! ## Decoders, masks, packings -/

/-- The status decoder gives the first state, in the fixed priority order, whose template matches, and no state exactly
when no template matches (R113). -/
def Obligations.StatusDecodeFirstMatch : Prop :=
  ∀ (t : StateTemplates) (sw : HalfWord),
    (∀ p : PowerState, decodeState t sw = some p ↔
      ∃ before after, [.notReadyToSwitchOn, .switchedOnDisabled, .readyToSwitchOn, .switchedOn, .operationEnabled,
          .quickStopActive, .faultReactionActive, .fault] = before ++ p :: after ∧
        sw &&& (templateOf t p).mask = (templateOf t p).value ∧
        ∀ q ∈ before, sw &&& (templateOf t q).mask ≠ (templateOf t q).value) ∧
    (decodeState t sw = none ↔ ∀ p : PowerState, sw &&& (templateOf t p).mask ≠ (templateOf t p).value)

/-- Under the default templates (general knowledge, log entry 3) each state is decoded exactly on its own template, so
the order changes nothing, and the word's bits 4, 7 and 8 to 15 change nothing (R112, R152, R154). -/
def Obligations.DefaultTemplatesDisjoint : Prop :=
  (∀ (sw : HalfWord) (p : PowerState), decodeState defaultTemplates sw = some p ↔
    sw &&& (templateOf defaultTemplates p).mask = (templateOf defaultTemplates p).value) ∧
  ∀ sw sw' : HalfWord, sw &&& 0x006F = sw' &&& 0x006F →
    decodeState defaultTemplates sw = decodeState defaultTemplates sw'

/-- The homing truth table on bits 13, 12 and 10 (R114). -/
def Obligations.HomingTruthTable : Prop :=
  ∀ sw : HalfWord, decodeHoming sw =
    match sw.getLsbD 13, sw.getLsbD 12, sw.getLsbD 10 with
    | false, false, false => some .inProgress
    | false, false, true => some .incomplete
    | false, true, false => some .unachieved
    | false, true, true => some .completed
    | true, false, false => some .errorStillMoving
    | true, false, true => some .errorHalt
    | true, true, false => none
    | true, true, true => none

/-- Every micro-op's word meets its match under its mask and keeps every bit outside the mask; the set and clear masks
share no bit; bits 9 to 15 are kept by every read-modify-write, and the power-state transitions keep bits 4, 5, 6 and 8
too (R102, R141, R142, R151, R177). -/
def Obligations.MicroOpWords : Prop :=
  (∀ op : CwOp, cwSet op &&& cwClr op = 0) ∧
  (∀ (op : CwOp) (v : HalfWord), op ≠ .clearAll → cwWord op v = (v ||| cwSet op) &&& ~~~cwClr op) ∧
  (∀ (op : CwOp) (v : HalfWord), cwWord op v &&& op.mask = op.mtch ∧
    cwWord op v &&& ~~~op.mask = v &&& ~~~op.mask) ∧
  (∀ (op : CwOp) (v : HalfWord), op ≠ .clearAll → cwWord op v &&& 0xFE00 = v &&& 0xFE00) ∧
  (∀ (op : CwOp) (v : HalfWord),
    op ∈ [.shutdown, .switchOn, .enableOperation, .disableOperation, .disableVoltage, .quickStop, .qsRecover1,
      .faultResetLow, .faultResetHigh] → cwWord op v &&& 0x0170 = v &&& 0x0170) ∧
  ∀ v : HalfWord, cwWord .clearAll v = 0

/-- A packed user-unit register gives its fields back and keeps the bits that are not the core's (R117, R118). -/
def Obligations.UserUnitPackings : Prop :=
  ∀ (old : Word) (unit exponent timebase : Byte),
    (unitField (packPos old unit exponent) = unit ∧ exponentField (packPos old unit exponent) = exponent ∧
      packPos old unit exponent &&& 0x0000FFFF = old &&& 0x0000FFFF) ∧
    (unitField (packVel old unit exponent timebase) = unit ∧
      exponentField (packVel old unit exponent timebase) = exponent ∧
      timebaseField (packVel old unit exponent timebase) = timebase ∧
      packVel old unit exponent timebase &&& 0x000000FF = old &&& 0x000000FF)

/-- Under the default tags (log entry 3): the drive-mode word of each tag is the one R207 gives, it is read back as the
same tag from every previous value, it keeps every bit but 0, 3 and 6, and every other tag has none (R207 to R210). -/
def Obligations.DriveModeRoundTrip : Prop :=
  (∀ r : Word, driveModeWord defaultDriveModeTags 0x00 r = some (r &&& ~~~0x00000049)) ∧
  (∀ r : Word, driveModeWord defaultDriveModeTags 0x01 r = some ((r ||| 0x00000001) &&& ~~~0x00000040)) ∧
  (∀ r : Word, driveModeWord defaultDriveModeTags 0x08 r = some ((r &&& ~~~0x00000041) ||| 0x00000008)) ∧
  (∀ r : Word, driveModeWord defaultDriveModeTags 0x41 r = some (r ||| 0x00000041)) ∧
  (∀ (tag : Byte) (r r' : Word), driveModeWord defaultDriveModeTags tag r = some r' →
    driveModeTagOf defaultDriveModeTags r' = tag ∧ r' &&& ~~~0x00000049 = r &&& ~~~0x00000049) ∧
  ∀ (tag : Byte) (r : Word), driveModeWord defaultDriveModeTags tag r = none ↔
    tag ∉ ([0x00, 0x01, 0x08, 0x41] : List Byte)

/-- A read returns the low bits of the collaborator's integer, sign-extended when the register is signed and
zero-extended otherwise (R16, R73). -/
def Obligations.ReadsAreNarrowed : Prop :=
  ∀ (a : OdAddr) (x : DWord),
    (narrow ⟨a, .w8, true⟩ x).toInt = (x.setWidth 8).toInt ∧
    (narrow ⟨a, .w16, true⟩ x).toInt = (x.setWidth 16).toInt ∧
    (narrow ⟨a, .w32, true⟩ x).toInt = (x.setWidth 32).toInt ∧
    (narrow ⟨a, .w8, false⟩ x).toNat = x.toNat % 2 ^ 8 ∧
    (narrow ⟨a, .w16, false⟩ x).toNat = x.toNat % 2 ^ 16 ∧
    (narrow ⟨a, .w32, false⟩ x).toNat = x.toNat % 2 ^ 32

/-- The codes of the power states and of the homing states (R108, R109). -/
def Obligations.StateCodes : Prop :=
  ([.notReadyToSwitchOn, .switchedOnDisabled, .readyToSwitchOn, .switchedOn, .operationEnabled, .quickStopActive,
      .faultReactionActive, .fault].map powerStateCode = [0, 1, 2, 3, 4, 5, 6, 7]) ∧
  ([.inProgress, .incomplete, .unachieved, .completed, .errorStillMoving, .errorHalt].map homingStateCode =
    [0, 1, 2, 3, 4, 5]) ∧
  (∀ p : PowerState, (powerStateCode p).toNat < 8) ∧ ∀ h : HomingState, (homingStateCode h).toNat < 6

/-! ## Reset, the port, the step -/

/-- After reset nothing is bound, PORT is IDLE, no sequencer exists, nothing has completed and no bus transaction has
been made; an IDLE core does nothing until the host moves (R50, R390). -/
def Obligations.ResetState : Prop :=
  CleanLaunch State.reset ∧ State.reset.trace = [] ∧ State.reset.completed = false ∧
  HandshakeInv State.reset ∧ CtrlInv State.reset ∧ TextInv State.reset ∧ TraceInv State.reset ∧
  StatusInv State.reset ∧ ∀ s : State, s.port = .idle → s.host = [] → step s = .next s

/-- Issuing a command latches `OPC` and `ARG`, sets `PORT` to BUSY and creates the sequencer step with `prev` NONE and
`faults` 0 (R35, R36, R37). -/
def Obligations.IssueLatchesTheFrame : Prop :=
  Sequencer.fresh.step = .issued ∧ Sequencer.fresh.prev = none ∧ Sequencer.fresh.faults = 0 ∧
  ∀ (s : State) (f : Frame) (rest : List HostMove), s.port = .idle → s.host = .issue f :: rest →
    step s = .next { s with host := rest, opc := f.opc, arg := f.arg, port := .busy, seq := some .fresh }

/-- The host's other moves on the ports. A write to the command port while `PORT` is BUSY changes nothing, and while IDLE
it sets `OPC` and `ARG` (R32, R363; the second is log entry 11). A read of `STATUS` or `RES` before the first completion
is a fault (R50). After it the host sees the register; that this holds of a `RES` word no command has written is the
model's choice (log entry 10). -/
def Obligations.HostPortMoves : Prop :=
  ∀ (s : State) (f : Frame) (rest : List HostMove) (k : Fin 6),
    (s.host = .writePort f :: rest → s.port = .busy → step s = .next { s with host := rest }) ∧
    (s.host = .writePort f :: rest → s.port = .idle →
      step s = .next { s with host := rest, opc := f.opc, arg := f.arg }) ∧
    (s.host = .readStatus :: rest → s.completed = false → step s = .fault .hostReadBeforeCompletion) ∧
    (s.host = .readRes k :: rest → s.completed = false → step s = .fault .hostReadBeforeCompletion) ∧
    (s.host = .readStatus :: rest → s.completed = true →
      step s = .next { s with host := rest, hostSeen := s.hostSeen ++ [.status s.status] }) ∧
    (s.host = .readRes k :: rest → s.completed = true →
      step s = .next { s with host := rest, hostSeen := s.hostSeen ++ [.res k (s.res.get k)] })

/-- A step of a BUSY core is `exec` of the instruction its sequencer stands at: at this state when the host has no move
or waits for IDLE, and with the move used up when the host lets the core step (R36). -/
def Obligations.StepRunsTheDecodedInstruction : Prop :=
  ∀ (s : State) (i : Instr), s.port = .busy → current s = some i →
    (s.host = [] → step s = exec i s) ∧
    (∀ f rest, s.host = .issue f :: rest → step s = exec i s) ∧
    (∀ rest, s.host = .awaitIdle :: rest → step s = exec i s) ∧
    ∀ rest, s.host = .pass :: rest → step s = exec i { s with host := rest }

/-- From issue to its last action, a command's run by the machine's steps is its run by `exec`, whichever micro-ops it
passes through (R17, R36). That a step inside a micro-op runs the micro-op as an instruction is the model's choice (log
entry 14). -/
def Obligations.StepsRunTheLatchedCommand : Prop :=
  ∀ (i : Instr) (n : Nat) (s t : State), decodeFrame s.frame = .ok i → Issued s → s.host = [] →
    runExec i n s = .next t → t.port = .busy → runSteps (n + 1) s = runExec i (n + 1) s

/-! ## The gate -/

/-- A command whose family needs another controller than `CTRL` ends with `IllegalCommand`, no bus access, `RES` and
`CTRL` unchanged (R105); a mode command or HALT that finds `CTRL` at 5, 6 or 7 is a fault (I15). -/
def Obligations.GateRefusals : Prop :=
  ∀ (i : Instr) (f : Frame) (s : State), encode i = .command f → Issued s →
    (s.ctrl.Held → ¬ GateOpen f.opc s.ctrl →
      exec i s = .next (failed s s.bus s.timer [] 0x02 s.res s.ctrl)) ∧
    (∀ k, s.ctrl = .neverHeld k → ¬ GateOpen f.opc s.ctrl ∨ i = .halt → exec i s = .fault .ctrlNeverHeld)

/-! ## Reading commands -/

/-- CURRENT_STATE (opcode 0x10) reads the status word once and reports the state's code, or `UnknownState`; a failed read
ends it with `IoError` (R170). -/
def Obligations.CurrentStateReports : Prop :=
  (∀ a : Bank, decodeFrame ⟨0x10, a⟩ = .ok .currentState) ∧
  ∀ (s : State) (more : List Answer), Issued s →
    (∀ x, s.bus = .ok x :: more →
      ∃ u, exec .currentState s = .next u ∧ runExec .currentState 1 u = .next
        (match stateShown s x with
          | some p => succeeded s more s.timer [readEvent s .sw x] (s.res.set 0 (powerStateCode p)) s.ctrl
          | none => failed s more s.timer [readEvent s .sw x] 0x11 s.res s.ctrl)) ∧
    (∀ e, s.bus = .error e :: more →
      exec .currentState s = .next (failed s more s.timer [readFailedEvent s .sw] 0x01 (s.res.set 0 e) s.ctrl))

/-- GET_MODE_OF_OPERATION (opcode 0x21) reads the mode register once, 8 bits wide by default, and reports the byte,
sign-extended, whatever it is; a failed read ends it with `IoError` (R205). -/
def Obligations.GetModeReports : Prop :=
  (∀ a : Bank, decodeFrame ⟨0x21, a⟩ = .ok .getModeOfOperation) ∧ (regParam defaultParams .mode).width = .w8 ∧
  ∀ (s : State) (more : List Answer), Issued s →
    (∀ x, s.bus = .ok x :: more →
      ∃ u, exec .getModeOfOperation s = .next u ∧ runExec .getModeOfOperation 1 u = .next
        (succeeded s more s.timer [readEvent s .mode x]
          (s.res.set 0 (((readValue s .mode x).setWidth 8).signExtend 32)) s.ctrl)) ∧
    (∀ e, s.bus = .error e :: more →
      exec .getModeOfOperation s =
        .next (failed s more s.timer [readFailedEvent s .mode] 0x01 (s.res.set 0 e) s.ctrl))

/-- The four actual-value reads (opcodes 0x26 to 0x29): one read of the register, its value unscaled in `RES[0]`; a failed
read ends the command with `IoError`. The registers are signed and 32 bits wide by default (R217 to R220). -/
def Obligations.ActualValueReads : Prop :=
  (∀ a : Bank, decodeFrame ⟨0x26, a⟩ = .ok .getPositionActual ∧ decodeFrame ⟨0x27, a⟩ = .ok .getSpeedActual ∧
    decodeFrame ⟨0x28, a⟩ = .ok .getVelocityActual ∧ decodeFrame ⟨0x29, a⟩ = .ok .getVelocityDemanded) ∧
  ∀ (i : Instr) (r : RegName),
    (i, r) ∈ [(.getPositionActual, .posActual), (.getSpeedActual, .speedActual), (.getVelocityActual, .velActual),
      (.getVelocityDemanded, .velDemand)] →
    (regParam defaultParams r).signed = true ∧ (regParam defaultParams r).width = .w32 ∧
    ∀ (s : State) (more : List Answer), Issued s →
      (∀ x, s.bus = .ok x :: more →
        ∃ u, exec i s = .next u ∧ runExec i 1 u = .next
          (succeeded s more s.timer [readEvent s r x] (s.res.set 0 (readValue s r x)) s.ctrl)) ∧
      (∀ e, s.bus = .error e :: more →
        exec i s = .next (failed s more s.timer [readFailedEvent s r] 0x01 (s.res.set 0 e) s.ctrl))

/-- GET_MOTOR_PARAMETERS reads the five scalars and the drive-mode register, with no disable step, and infers the tag by
the priority of R209. -/
def Obligations.GetMotorParametersReports : Prop :=
  ∀ (s : State) (x0 x1 x2 x3 x4 x5 : DWord) (more : List Answer), Issued s →
    s.bus = .ok x0 :: .ok x1 :: .ok x2 :: .ok x3 :: .ok x4 :: .ok x5 :: more →
    ∃ u, exec .getMotorParameters s = .next u ∧ runExec .getMotorParameters 6 u = .next
      (succeeded s more s.timer
        [readEvent s .polePairs x0, readEvent s .ratedCurrent x1, readEvent s .maxCurrent x2,
          readEvent s .maxCurrentDuration x3, readEvent s .idleCurrent x4, readEvent s .driveMode x5]
        ⟨readValue s .polePairs x0, readValue s .ratedCurrent x1, readValue s .maxCurrent x2,
          readValue s .maxCurrentDuration x3, readValue s .idleCurrent x4,
          (if (readValue s .driveMode x5).getLsbD 0 = false then
              (if (readValue s .driveMode x5).getLsbD 3 = true then
                s.params.driveModeTags.stepperOpenLoopWithReduction
              else s.params.driveModeTags.stepperOpenLoopNoReduction)
            else if (readValue s .driveMode x5).getLsbD 6 = true then s.params.driveModeTags.bldc
            else s.params.driveModeTags.stepperClosedLoop).setWidth 32⟩
        s.ctrl)

/-- GET_VELOCITY_ACCELERATION and GET_VELOCITY_DECELERATION (opcodes 0x62, 0x64) read deltaSpeed, then deltaTime, with no
disable step; when the second read fails, the first result is not committed (R302, R304, R356). -/
def Obligations.VelocityRampReads : Prop :=
  (∀ a : Bank, decodeFrame ⟨0x62, a⟩ = .ok .getVelocityAcceleration ∧
    decodeFrame ⟨0x64, a⟩ = .ok .getVelocityDeceleration) ∧
  (∀ r ∈ [RegName.velAccDs, .velAccDt, .velDecDs, .velDecDt], (regParam defaultParams r).width = .w32) ∧
  ∀ (i : Instr) (ds dt : RegName),
    (i, ds, dt) ∈ [(.getVelocityAcceleration, .velAccDs, .velAccDt), (.getVelocityDeceleration, .velDecDs, .velDecDt)] →
    ∀ (s : State) (more : List Answer), Issued s → s.ctrl = .velocity →
      (∀ x y, s.bus = .ok x :: .ok y :: more →
        ∃ u, exec i s = .next u ∧ runExec i 2 u = .next
          (succeeded s more s.timer [readEvent s ds x, readEvent s dt y]
            ((s.res.set 0 (readValue s ds x)).set 1 (readValue s dt y)) s.ctrl)) ∧
      (∀ e, s.bus = .error e :: more →
        exec i s = .next (failed s more s.timer [readFailedEvent s ds] 0x01 (s.res.set 0 e) s.ctrl)) ∧
      (∀ x e, s.bus = .ok x :: .error e :: more →
        ∃ u, exec i s = .next u ∧ runExec i 1 u = .next
          (failed s more s.timer [readEvent s ds x, readFailedEvent s dt] 0x01 (s.res.set 0 e) s.ctrl))

/-- GET_HOMING_STATE (opcode 0x45) reads the status word once and reports the homing state's code, or
`UnknownHomingState`; a failed read ends it with `IoError` (R251). -/
def Obligations.GetHomingStateReports : Prop :=
  (∀ a : Bank, decodeFrame ⟨0x45, a⟩ = .ok .getHomingState) ∧
  ∀ (s : State) (more : List Answer), Issued s → s.ctrl = .homing →
    (∀ x, s.bus = .ok x :: more →
      ∃ u, exec .getHomingState s = .next u ∧ runExec .getHomingState 1 u = .next
        (match decodeHoming (statusWord s x) with
          | some h => succeeded s more s.timer [readEvent s .sw x] (s.res.set 0 (homingStateCode h)) s.ctrl
          | none => failed s more s.timer [readEvent s .sw x] 0x26 s.res s.ctrl)) ∧
    (∀ e, s.bus = .error e :: more →
      exec .getHomingState s = .next (failed s more s.timer [readFailedEvent s .sw] 0x01 (s.res.set 0 e) s.ctrl))

/-! ## Writing commands -/

/-- The commands that write one register with their operand as given, under their controller; a failed write ends them
with `IoError` (R243, R244, R273, R274, R300). The operand is `ARG[0]`; the registers are 32 bits wide by default. -/
def Obligations.SingleRegisterWrites : Prop :=
  (∀ a : Bank, decodeFrame ⟨0x41, a⟩ = .ok (.setHomingMode a.r0.toInt) ∧
    decodeFrame ⟨0x42, a⟩ = .ok (.setHomingAcceleration a.r0) ∧
    decodeFrame ⟨0x51, a⟩ = .ok (.setProfileVelocity a.r0) ∧
    decodeFrame ⟨0x52, a⟩ = .ok (.setProfileAcceleration a.r0) ∧
    decodeFrame ⟨0x60, a⟩ = .ok (.setTargetVelocity a.r0.toInt)) ∧
  (∀ r ∈ [RegName.homingMethod, .homingAccel, .profileVelocity, .profileAccel, .targetVelocity],
    (regParam defaultParams r).width = .w32) ∧
  ∀ (v : Int) (a : Word) (i : Instr) (r : RegName) (x : Word) (c : Ctrl),
    (i, r, x, c) ∈ [(.setHomingMode v, .homingMethod, BitVec.ofInt 32 v, .homing),
      (.setHomingAcceleration a, .homingAccel, a, .homing),
      (.setProfileVelocity a, .profileVelocity, a, .profilePosition),
      (.setProfileAcceleration a, .profileAccel, a, .profilePosition),
      (.setTargetVelocity v, .targetVelocity, BitVec.ofInt 32 v, .velocity)] →
    ∀ (s : State) (more : List Answer), Issued s → s.ctrl = c →
      (∀ y, s.bus = .ok y :: more →
        ∃ u, exec i s = .next u ∧ runExec i 1 u = .next
          (succeeded s more s.timer [writeEvent s r x] s.res s.ctrl)) ∧
      (∀ e, s.bus = .error e :: more →
        exec i s = .next (failed s more s.timer [writeFailedEvent s r x] 0x01 (s.res.set 0 e) s.ctrl))

/-- The ramp descriptors: deltaSpeed = `ARG[0]`, then deltaTime = `ARG[1]`, as given; when the second write fails, the
first has been issued (R301, R303). -/
def Obligations.VelocityRampWrites : Prop :=
  (∀ a : Bank, decodeFrame ⟨0x61, a⟩ = .ok (.setVelocityAcceleration a.r0 a.r1) ∧
    decodeFrame ⟨0x63, a⟩ = .ok (.setVelocityDeceleration a.r0 a.r1)) ∧
  (∀ r ∈ [RegName.velAccDs, .velAccDt, .velDecDs, .velDecDt], (regParam defaultParams r).width = .w32) ∧
  ∀ (a b : Word) (i : Instr) (ds dt : RegName),
    (i, ds, dt) ∈ [(.setVelocityAcceleration a b, .velAccDs, .velAccDt),
      (.setVelocityDeceleration a b, .velDecDs, .velDecDt)] →
    ∀ (s : State) (more : List Answer), Issued s → s.ctrl = .velocity →
      (∀ y z, s.bus = .ok y :: .ok z :: more →
        ∃ u, exec i s = .next u ∧ runExec i 2 u = .next
          (succeeded s more s.timer [writeEvent s ds a, writeEvent s dt b] s.res s.ctrl)) ∧
      (∀ e, s.bus = .error e :: more →
        exec i s = .next (failed s more s.timer [writeFailedEvent s ds a] 0x01 (s.res.set 0 e) s.ctrl)) ∧
      (∀ y e, s.bus = .ok y :: .error e :: more →
        ∃ u, exec i s = .next u ∧ runExec i 1 u = .next
          (failed s more s.timer [writeEvent s ds a, writeFailedEvent s dt b] 0x01 (s.res.set 0 e) s.ctrl))

/-- SET_HOMING_SPEED (opcode 0x40, speedToZero = `ARG[0]`, speedToSwitch = `ARG[1]`): unless speedToZero is below
speedToSwitch, unsigned and strict, it ends with no bus access; else it writes the speed to zero, then the speed to the
switch (R241). -/
def Obligations.SetHomingSpeedOrder : Prop :=
  (∀ a : Bank, decodeFrame ⟨0x40, a⟩ = .ok (.setHomingSpeed a.r0 a.r1)) ∧
  (∀ r ∈ [RegName.homingSpeedZero, .homingSpeedSwitch], (regParam defaultParams r).width = .w32) ∧
  ∀ (z sw : Word) (s : State) (more : List Answer), Issued s → s.ctrl = .homing →
    (sw.toNat ≤ z.toNat →
      exec (.setHomingSpeed z sw) s = .next (failed s s.bus s.timer [] 0x24 s.res s.ctrl)) ∧
    (z.toNat < sw.toNat →
      (∀ x y, s.bus = .ok x :: .ok y :: more →
        ∃ u, exec (.setHomingSpeed z sw) s = .next u ∧ runExec (.setHomingSpeed z sw) 2 u = .next
          (succeeded s more s.timer [writeEvent s .homingSpeedZero z, writeEvent s .homingSpeedSwitch sw] s.res
            s.ctrl)) ∧
      (∀ e, s.bus = .error e :: more →
        exec (.setHomingSpeed z sw) s =
          .next (failed s more s.timer [writeFailedEvent s .homingSpeedZero z] 0x01 (s.res.set 0 e) s.ctrl)) ∧
      (∀ x e, s.bus = .ok x :: .error e :: more →
        ∃ u, exec (.setHomingSpeed z sw) s = .next u ∧ runExec (.setHomingSpeed z sw) 1 u = .next
          (failed s more s.timer [writeEvent s .homingSpeedZero z, writeFailedEvent s .homingSpeedSwitch sw] 0x01
            (s.res.set 0 e) s.ctrl)))

/-- UNBIND (opcode 0x34) sets `CTRL` to None in its one action, with no bus access and no error (R229). -/
def Obligations.UnbindReleases : Prop :=
  (∀ a : Bank, decodeFrame ⟨0x34, a⟩ = .ok .unbind) ∧
  ∀ s : State, Issued s → exec .unbind s = .next (succeeded s s.bus s.timer [] s.res .unbound)

/-! ## Disabling operation and the commands that disable first -/

/-- DISABLE_OPERATION runs as R178 says: read, reset or disable by the state read, re-read, and end. -/
def Obligations.DisableOperationRuns : Prop :=
  ∀ (s : State) (b more : List Answer) (es : List Event) (r : Option ProtocolError), Issued s →
    DisableRun s b es r → s.bus = b ++ more →
    ∃ u, exec .disableOperation s = .next u ∧ runExec .disableOperation b.length u = .next
      (ended s more s.timer es s.res s.ctrl r)

/-- DISABLE_OPERATION always ends: within six successful answers, whatever they are, each access using one, and with no
access after its end (R178, R179). -/
def Obligations.DisableStepEnds : Prop :=
  ∀ (s : State) (x0 x1 x2 x3 x4 x5 : DWord) (more : List Answer), Issued s →
    s.bus = answers [x0, x1, x2, x3, x4, x5] ++ more →
    ∃ (n : Nat) (t : State), n ≤ 6 ∧ runExec .disableOperation (n + 1) s = .next t ∧ t.port = .idle ∧ t.seq = none ∧
      t.bus = s.bus.drop n

/-- Every command whose text begins by disabling operation ends with the disable step's error, with none of its own
accesses (R200, R358). -/
def Obligations.DisableFailureEndsTheCommand : Prop :=
  ∀ (i : Instr) (s : State) (b more : List Answer) (es : List Event) (e : ProtocolError), disablesFirst i = true →
    Admitted i s → Issued s → DisableRun s b es (some e) → s.bus = b ++ more →
    ∃ u, exec i s = .next u ∧ runExec i b.length u = .next
      (failed s more s.timer es (protocolCode e) s.res s.ctrl)

/-- SET_MODE_OF_OPERATION: one read and no write when the drive has the mode; else the disable step, then the write of
the mode, or the disable step's error with no write (R204). -/
def Obligations.SetModeOfOperationRuns : Prop :=
  ∀ (mode : Int) (s : State) (x : DWord) (more : List Answer), Issued s →
    (((readValue s .mode x).setWidth 8).toInt = mode → s.bus = .ok x :: more →
      ∃ u, exec (.setModeOfOperation mode) s = .next u ∧ runExec (.setModeOfOperation mode) 1 u = .next
        (succeeded s more s.timer [readEvent s .mode x] s.res s.ctrl)) ∧
    (((readValue s .mode x).setWidth 8).toInt ≠ mode → ∀ (b : List Answer) (es : List Event),
      (∀ y, DisableRun s b es none → s.bus = .ok x :: (b ++ .ok y :: more) →
        ∃ u, exec (.setModeOfOperation mode) s = .next u ∧
          runExec (.setModeOfOperation mode) (b.length + 2) u = .next
            (succeeded s more s.timer
              (readEvent s .mode x :: (es ++ [writeEvent s .mode (BitVec.ofInt 32 mode)])) s.res s.ctrl)) ∧
      (∀ e, DisableRun s b es (some e) → s.bus = .ok x :: (b ++ more) →
        ∃ u, exec (.setModeOfOperation mode) s = .next u ∧
          runExec (.setModeOfOperation mode) (b.length + 1) u = .next
            (failed s more s.timer (readEvent s .mode x :: es) (protocolCode e) s.res s.ctrl)))

/-- BIND_*: SetModeOfOperation with the controller's mode; wherever the command ends, and whatever the drive answered,
`CTRL` becomes the controller when it ended with Ok and None when it ended with any error (R228). -/
def Obligations.BindRuns : Prop :=
  ∀ (i : Instr) (c : Ctrl) (mode : Int),
    (i, c, mode) ∈ [(.bindHoming, .homing, 6), (.bindProfilePosition, .profilePosition, 1),
      (.bindVelocity, .velocity, 2), (.bindAutoSetup, .autoSetup, -2)] →
    (∀ (n : Nat) (s u t : State), Issued s → runExec i n s = .next u → u.port = .busy → exec i u = .next t →
      t.port = .idle → t.ctrl = if t.status = 0x00 then c else .unbound) ∧
    ∀ (s : State) (x : DWord) (more : List Answer), Issued s →
      (((readValue s .mode x).setWidth 8).toInt = mode → s.bus = .ok x :: more →
        ∃ u, exec i s = .next u ∧ runExec i 1 u = .next
          (succeeded s more s.timer [readEvent s .mode x] s.res c)) ∧
      (((readValue s .mode x).setWidth 8).toInt ≠ mode → ∀ (b : List Answer) (es : List Event),
        (∀ y, DisableRun s b es none → s.bus = .ok x :: (b ++ .ok y :: more) →
          ∃ u, exec i s = .next u ∧ runExec i (b.length + 2) u = .next
            (succeeded s more s.timer
              (readEvent s .mode x :: (es ++ [writeEvent s .mode (BitVec.ofInt 32 mode)])) s.res c)) ∧
        (∀ e, DisableRun s b es (some e) → s.bus = .ok x :: (b ++ more) →
          ∃ u, exec i s = .next u ∧ runExec i (b.length + 1) u = .next
            (failed s more s.timer (readEvent s .mode x :: es) (protocolCode e) s.res .unbound)) ∧
        (∀ e, DisableRun s b es none → s.bus = .ok x :: (b ++ .error e :: more) →
          ∃ u, exec i s = .next u ∧ runExec i (b.length + 1) u = .next
            (failed s more s.timer
              (readEvent s .mode x :: (es ++ [writeFailedEvent s .mode (BitVec.ofInt 32 mode)])) 0x01
              (s.res.set 0 e) .unbound))) ∧
      (∀ e, s.bus = .error e :: more →
        exec i s = .next (failed s more s.timer [readFailedEvent s .mode] 0x01 (s.res.set 0 e) .unbound))

/-- SET_MOTOR_PARAMETERS: the disable step, five writes, the read of the drive-mode register, and the write of the edited
word; an unknown tag ends it after the five writes and the read, with no write of the register (R207, R208). -/
def Obligations.SetMotorParametersRuns : Prop :=
  ∀ (pp rc mc mcd ic : Word) (dm : Byte) (s : State) (b more : List Answer) (es : List Event)
    (y0 y1 y2 y3 y4 x : DWord), Issued s → DisableRun s b es none →
    (∀ (y5 : DWord) (w : Word),
      s.bus = b ++ .ok y0 :: .ok y1 :: .ok y2 :: .ok y3 :: .ok y4 :: .ok x :: .ok y5 :: more →
      driveModeWord s.params.driveModeTags dm (readValue s .driveMode x) = some w →
      ∃ u, exec (.setMotorParameters pp rc mc mcd ic dm) s = .next u ∧
        runExec (.setMotorParameters pp rc mc mcd ic dm) (b.length + 7) u = .next
          (succeeded s more s.timer
            (es ++ [writeEvent s .polePairs pp, writeEvent s .ratedCurrent rc, writeEvent s .maxCurrent mc,
              writeEvent s .maxCurrentDuration mcd, writeEvent s .idleCurrent ic, readEvent s .driveMode x,
              writeEvent s .driveMode w]) s.res s.ctrl)) ∧
    (s.bus = b ++ .ok y0 :: .ok y1 :: .ok y2 :: .ok y3 :: .ok y4 :: .ok x :: more →
      driveModeWord s.params.driveModeTags dm (readValue s .driveMode x) = none →
      ∃ u, exec (.setMotorParameters pp rc mc mcd ic dm) s = .next u ∧
        runExec (.setMotorParameters pp rc mc mcd ic dm) (b.length + 6) u = .next
          (failed s more s.timer
            (es ++ [writeEvent s .polePairs pp, writeEvent s .ratedCurrent rc, writeEvent s .maxCurrent mc,
              writeEvent s .maxCurrentDuration mcd, writeEvent s .idleCurrent ic, readEvent s .driveMode x])
            0x25 s.res s.ctrl))

/-- SAVE_GROUP: the disable step, the signature written to the group's save register, then reads of it with a wait after
each that is not exactly 1: success at the first 1, `SaveTimeout` after `SAVE_POLL_MAX` reads and as many waits (R160,
R212, R213). -/
def Obligations.SaveGroupRuns : Prop :=
  ∀ (g : Byte) (s : State) (b more : List Answer) (es : List Event) (y : DWord) (xs : List DWord) (left : Nat),
    Issued s → DisableRun s b es none → (∀ x ∈ xs, readValue s (.save g) x ≠ 1) → s.timer = xs.length + left →
    (∀ x, readValue s (.save g) x = 1 → xs.length < s.params.savePollMax →
      s.bus = b ++ .ok y :: (answers xs ++ .ok x :: more) →
      ∃ u, exec (.saveGroup g) s = .next u ∧
        runExec (.saveGroup g) (b.length + 2 * xs.length + 2) u = .next
          (succeeded s more left
            (es ++ writeEvent s (.save g) s.params.saveSignature ::
              (pollEvents s (.save g) s.params.savePollMs xs ++ [readEvent s (.save g) x])) s.res s.ctrl)) ∧
    (xs.length = s.params.savePollMax → s.bus = b ++ .ok y :: (answers xs ++ more) →
      ∃ u, exec (.saveGroup g) s = .next u ∧
        runExec (.saveGroup g) (b.length + 2 * xs.length + 1) u = .next
          (failed s more left
            (es ++ writeEvent s (.save g) s.params.saveSignature ::
              pollEvents s (.save g) s.params.savePollMs xs) 0x20 s.res s.ctrl))

/-- SET_USER_UNITS_FEED: the disable step, then the numerator and the denominator, as given (R215). -/
def Obligations.SetFeedRuns : Prop :=
  ∀ (num den : Word) (s : State) (b more : List Answer) (es : List Event) (y z : DWord), Issued s →
    DisableRun s b es none → s.bus = b ++ .ok y :: .ok z :: more →
    ∃ u, exec (.setUserUnitsFeed num den) s = .next u ∧
      runExec (.setUserUnitsFeed num den) (b.length + 2) u = .next
        (succeeded s more s.timer (es ++ [writeEvent s .feedNum num, writeEvent s .feedDen den]) s.res s.ctrl)

/-- The position user units: the disable step, then a read-modify-write that puts exponent and unit above the register's
low 16 bits, or a read whose two upper bytes are the results (R277, R278). -/
def Obligations.PositionUnitsRun : Prop :=
  ∀ (unit exponent : Byte) (s : State) (b more : List Answer) (es : List Event) (x : DWord), Issued s →
    s.ctrl = .profilePosition → DisableRun s b es none →
    (∀ y, s.bus = b ++ .ok x :: .ok y :: more →
      ∃ u, exec (.setUserUnitsPositioning unit exponent) s = .next u ∧
        runExec (.setUserUnitsPositioning unit exponent) (b.length + 2) u = .next
          (succeeded s more s.timer
            (es ++ [readEvent s .posUnits x,
              writeEvent s .posUnits (exponent ++ unit ++ (readValue s .posUnits x).setWidth 16)]) s.res s.ctrl)) ∧
    (s.bus = b ++ .ok x :: more →
      ∃ u, exec .getUserUnitsPositioning s = .next u ∧
        runExec .getUserUnitsPositioning (b.length + 1) u = .next
          (succeeded s more s.timer (es ++ [readEvent s .posUnits x])
            ((s.res.set 0 (((readValue s .posUnits x).extractLsb' 16 8).setWidth 32)).set 1
              (((readValue s .posUnits x).extractLsb' 24 8).setWidth 32)) s.ctrl))

/-- The velocity user units: as the position units, with the time base in the second byte and the low 8 bits kept (R307,
R308). -/
def Obligations.VelocityUnitsRun : Prop :=
  ∀ (unit exponent timebase : Byte) (s : State) (b more : List Answer) (es : List Event) (x : DWord), Issued s →
    s.ctrl = .velocity → DisableRun s b es none →
    (∀ y, s.bus = b ++ .ok x :: .ok y :: more →
      ∃ u, exec (.setUserUnitsVelocity unit exponent timebase) s = .next u ∧
        runExec (.setUserUnitsVelocity unit exponent timebase) (b.length + 2) u = .next
          (succeeded s more s.timer
            (es ++ [readEvent s .velUnits x,
              writeEvent s .velUnits (exponent ++ unit ++ timebase ++ (readValue s .velUnits x).setWidth 8)])
            s.res s.ctrl)) ∧
    (s.bus = b ++ .ok x :: more →
      ∃ u, exec .getUserUnitsVelocity s = .next u ∧
        runExec .getUserUnitsVelocity (b.length + 1) u = .next
          (succeeded s more s.timer (es ++ [readEvent s .velUnits x])
            (((s.res.set 0 (((readValue s .velUnits x).extractLsb' 16 8).setWidth 32)).set 1
              (((readValue s .velUnits x).extractLsb' 24 8).setWidth 32)).set 2
              (((readValue s .velUnits x).extractLsb' 8 8).setWidth 32)) s.ctrl))

/-! ## Power-state commands -/

/-- ENABLE_OPERATION is the loop of R172: whatever the drive answers, the sequencer makes the accesses of the rule's
pseudocode and ends as it ends. -/
def Obligations.EnableOperationRuns : Prop :=
  ∀ (s : State) (b more : List Answer) (es : List Event) (r : Option ProtocolError), Issued s →
    EnableRun s none 0 b es r → s.bus = b ++ more →
    ∃ u, exec .enableOperation s = .next u ∧ runExec .enableOperation b.length u = .next
      (ended s more s.timer es s.res s.ctrl r)

/-- A drive whose status word stays constant always ends the loop, whatever its control word reads and whatever the loop
has observed before: from the loop's head, while every status read shows the same state (or no state), ENABLE_OPERATION
ends within `FAULT_RESET_RETRIES + 2` turns, with the state's end (R174, R173, R175). A turn is one status read and the
control-word accesses of the state it shows. -/
def Obligations.EnableEndsOnAConstantDrive : Prop :=
  ∀ (s : State) (st : Option PowerState) (turns : List (DWord × List DWord)) (more : List Answer), AtEnableLoop s →
    (∀ q ∈ turns, stateShown s q.1 = st ∧ q.2.length = 2 * ((st.bind enableOps).getD []).length) →
    turns.length = s.params.faultResetRetries + 2 →
    s.bus = turns.flatMap (fun q => .ok q.1 :: answers q.2) ++ more →
    ∃ (n : Nat) (t : State), n ≤ 5 * (s.params.faultResetRetries + 2) ∧
      runExec .enableOperation (n + 1) s = .next t ∧ t.port = .idle ∧ t.seq = none ∧ t.bus = s.bus.drop n ∧
      t.status = endStatus (enableEndAt s st)

/-- A drive that never leaves Fault gets exactly `FAULT_RESET_RETRIES + 1` reset pulses, and the command fails with
`FaultNotCleared` on that observation (R173). -/
def Obligations.FaultResetRetries : Prop :=
  ∀ (s : State) (more : List Answer) (turns : List (DWord × DWord × DWord × DWord × DWord)), Issued s →
    (∀ q ∈ turns, stateShown s q.1 = some .fault) → turns.length = s.params.faultResetRetries + 1 →
    s.bus = turns.flatMap (fun q => answers [q.1, q.2.1, q.2.2.1, q.2.2.2.1, q.2.2.2.2]) ++ more →
    ∃ u, exec .enableOperation s = .next u ∧ runExec .enableOperation (5 * turns.length) u = .next
      (failed s more s.timer
        (turns.flatMap (fun q =>
          readEvent s .sw q.1 :: (cwEvents s .faultResetLow q.2.1 ++ cwEvents s .faultResetHigh q.2.2.2.1)))
        0x14 s.res s.ctrl)

/-- The enable hang: against a drive that shows SwitchedOnDisabled and ReadyToSwitchOn in turn, the core is BUSY after any
number of turns (R174, R407). -/
def Obligations.EnableHangs : Prop :=
  ∀ (s : State) (x y c w : DWord) (more : List Answer) (n : Nat), Issued s →
    stateShown s x = some .switchedOnDisabled → stateShown s y = some .readyToSwitchOn →
    s.bus = (List.replicate n (answers [x, c, w, y, c, w])).flatten ++ more →
    ∃ t, runExec .enableOperation (6 * n) s = .next t ∧ t.port = .busy ∧ t.seq.isSome = true ∧ t.bus = more ∧
      t.trace.length = s.trace.length + 6 * n

/-- SHUTDOWN: one status read, the micro-ops of the state read, no re-read; or the error of the read (R181, R182). -/
def Obligations.ShutdownRuns : Prop :=
  ∀ (s : State) (x : DWord) (more : List Answer), Issued s →
    (∀ (p : PowerState) (ops : List CwOp) (b : List Answer) (es : List Event), stateShown s x = some p →
      shutdownOps p = some ops → CwRun s ops b es → s.bus = .ok x :: (b ++ more) →
      ∃ u, exec .shutdown s = .next u ∧ runExec .shutdown (b.length + 1) u = .next
        (succeeded s more s.timer (readEvent s .sw x :: es) s.res s.ctrl)) ∧
    (stateShown s x = some .notReadyToSwitchOn → s.bus = .ok x :: more →
      ∃ u, exec .shutdown s = .next u ∧ runExec .shutdown 1 u = .next
        (failed s more s.timer [readEvent s .sw x] 0x10 s.res s.ctrl)) ∧
    (stateShown s x = none → s.bus = .ok x :: more →
      ∃ u, exec .shutdown s = .next u ∧ runExec .shutdown 1 u = .next
        (failed s more s.timer [readEvent s .sw x] 0x11 s.res s.ctrl))

/-- QUICK_STOP: the quick-stop transition from OperationEnabled only, then the re-read; `QuickStopFailed` when it still
shows OperationEnabled (R184). -/
def Obligations.QuickStopRuns : Prop :=
  ∀ (s : State) (x z : DWord) (more : List Answer), Issued s →
    (∀ (p : PowerState) (b : List Answer) (es : List Event), stateShown s x = some p →
      CwRun s (quickStopOps p) b es → s.bus = .ok x :: (b ++ .ok z :: more) →
      ∃ u, exec .quickStop s = .next u ∧ runExec .quickStop (b.length + 2) u = .next
        (ended s more s.timer (readEvent s .sw x :: (es ++ [readEvent s .sw z])) s.res s.ctrl
          (rereadEnd .quickStopFailed (stateShown s z)))) ∧
    (stateShown s x = none → s.bus = .ok x :: more →
      ∃ u, exec .quickStop s = .next u ∧ runExec .quickStop 1 u = .next
        (failed s more s.timer [readEvent s .sw x] 0x11 s.res s.ctrl))

/-! ## Halt -/

/-- HALT under Homing clears the start bit only, and under ProfilePosition sets the halt bit only; a failed access ends it
with `IoError` (R253, R280). -/
def Obligations.ModeHalts : Prop :=
  ∀ (c : Ctrl) (op : CwOp), (c, op) ∈ [(.homing, .startClear), (.profilePosition, .haltSet)] →
    ∀ (s : State) (more : List Answer), Issued s → s.ctrl = c →
      (∀ x y, s.bus = .ok x :: .ok y :: more →
        ∃ u, exec .halt s = .next u ∧ runExec .halt 2 u = .next
          (succeeded s more s.timer (cwEvents s op x) s.res s.ctrl)) ∧
      (∀ e, s.bus = .error e :: more →
        exec .halt s = .next (failed s more s.timer [readFailedEvent s .cw] 0x01 (s.res.set 0 e) s.ctrl)) ∧
      (∀ x e, s.bus = .ok x :: .error e :: more →
        ∃ u, exec .halt s = .next u ∧ runExec .halt 1 u = .next
          (failed s more s.timer
            [readEvent s .cw x, writeFailedEvent s .cw ((cwWritten s op x).setWidth 32)] 0x01 (s.res.set 0 e) s.ctrl))

/-- HALT under None, Velocity or AutoSetup is the base halt: in modes 1, 2, 3, 4 and 7 the slow-down option and the halt
bit, in every other mode `InvalidHaltMode` with no write (R225, R226). -/
def Obligations.BaseHaltRuns : Prop :=
  ∀ (s : State) (x : DWord) (more : List Answer), Issued s → s.ctrl ∈ [.unbound, .velocity, .autoSetup] →
    (∀ y v z, ((readValue s .mode x).setWidth 8).toInt ∈ ([1, 2, 3, 4, 7] : List Int) →
      s.bus = .ok x :: .ok y :: .ok v :: .ok z :: more →
      ∃ u, exec .halt s = .next u ∧ runExec .halt 4 u = .next
        (succeeded s more s.timer
          ([readEvent s .mode x, writeEvent s .haltOption s.params.haltOptSlowdown] ++ cwEvents s .haltSet v)
          s.res s.ctrl)) ∧
    (((readValue s .mode x).setWidth 8).toInt ∉ ([1, 2, 3, 4, 7] : List Int) → s.bus = .ok x :: more →
      ∃ u, exec .halt s = .next u ∧ runExec .halt 1 u = .next
        (failed s more s.timer [readEvent s .mode x] 0x23 s.res s.ctrl))

/-! ## Starting a motion -/

/-- START_HOMING runs as R246 says; HOME writes the two speeds and the method first, or ends with no access when the
speeds are in the wrong order (R246, R249). -/
def Obligations.HomingStarts : Prop :=
  ∀ (s : State) (b more : List Answer) (es : List Event) (r : Option ProtocolError), Issued s → s.ctrl = .homing →
    (StartHomingRun s b es r → s.bus = b ++ more →
      ∃ u, exec .startHoming s = .next u ∧ runExec .startHoming b.length u = .next
        (ended s more s.timer es s.res s.ctrl r)) ∧
    (∀ (z sw : Word) (x y w : DWord), z.toNat < sw.toNat → StartHomingRun s b es r →
      s.bus = .ok x :: .ok y :: .ok w :: (b ++ more) →
      ∃ u, exec (.home z sw) s = .next u ∧ runExec (.home z sw) (b.length + 3) u = .next
        (ended s more s.timer
          (writeEvent s .homingSpeedZero z :: writeEvent s .homingSpeedSwitch sw ::
            writeEvent s .homingMethod s.params.homeMethod :: es) s.res s.ctrl r)) ∧
    ∀ z sw : Word, sw.toNat ≤ z.toNat → exec (.home z sw) s = .next (failed s s.bus s.timer [] 0x24 s.res s.ctrl)

/-- SET_TARGET_POSITION: one control-word write that clears the start bit and sets or clears the relative bit, the
limit-switch option, the target (R271). -/
def Obligations.SetTargetPositionRuns : Prop :=
  ∀ (value : Int) (rel : Bool) (s : State) (x y z w : DWord) (more : List Answer), Issued s →
    s.ctrl = .profilePosition → s.bus = .ok x :: .ok y :: .ok z :: .ok w :: more →
    ∃ u, exec (.setTargetPosition value rel) s = .next u ∧ runExec (.setTargetPosition value rel) 4 u = .next
      (succeeded s more s.timer
        [readEvent s .cw x,
          writeEvent s .cw
            ((if rel then (word16 (readValue s .cw x) ||| 0x0040) &&& ~~~0x0010
              else word16 (readValue s .cw x) &&& ~~~0x0050).setWidth 32),
          writeEvent s .lswOption s.params.lswOptQsSod, writeEvent s .targetPosition (BitVec.ofInt 32 value)]
        s.res s.ctrl)

/-- START_POSITIONING: the strobe, then EnableOperation. START_VELOCITY: the limit-switch option, the halt bit cleared,
then EnableOperation (R275, R305). -/
def Obligations.MotionStarts : Prop :=
  ∀ (s : State) (w x y : DWord) (b more : List Answer) (es : List Event) (r : Option ProtocolError), Issued s →
    EnableRun s none 0 b es r →
    (s.ctrl = .profilePosition → s.bus = .ok x :: .ok y :: (b ++ more) →
      ∃ u, exec .startPositioning s = .next u ∧ runExec .startPositioning (b.length + 2) u = .next
        (ended s more s.timer (cwEvents s .ppStart x ++ es) s.res s.ctrl r)) ∧
    (s.ctrl = .velocity → s.bus = .ok w :: .ok x :: .ok y :: (b ++ more) →
      ∃ u, exec .startVelocity s = .next u ∧ runExec .startVelocity (b.length + 3) u = .next
        (ended s more s.timer
          (writeEvent s .lswOption s.params.lswOptQsSod :: (cwEvents s .haltClear x ++ es)) s.res s.ctrl r))

/-- AUTO_SETUP_MOTOR_PARAMETERS: the precondition on one read, which the bits `REMOTE_BIT`, `QS_BIT` and `RTSO_BIT`
violate by the sense chosen; EnableOperation; the start bit; the poll of status bit 12; the control word cleared on
success only (R330, R331). -/
def Obligations.AutoSetupRuns : Prop :=
  (∀ (p : Params) (sw : HalfWord),
    (p.autoSetupPrecondSense = .failWhenAllSet → (precondViolated p sw = true ↔
      sw.getLsbD p.remoteBit = true ∧ sw.getLsbD p.qsBit = true ∧ sw.getLsbD p.rtsoBit = true)) ∧
    (p.autoSetupPrecondSense = .failUnlessAllSet → (precondViolated p sw = true ↔
      ¬ (sw.getLsbD p.remoteBit = true ∧ sw.getLsbD p.qsBit = true ∧ sw.getLsbD p.rtsoBit = true)))) ∧
  ∀ (s : State) (x : DWord) (b more : List Answer) (es : List Event), Issued s → s.ctrl = .autoSetup →
    (precondViolated s.params (statusWord s x) = true → s.bus = .ok x :: more →
      ∃ u, exec .autoSetupMotorParameters s = .next u ∧ runExec .autoSetupMotorParameters 1 u = .next
        (failed s more s.timer [readEvent s .sw x] 0x22 s.res s.ctrl)) ∧
    (precondViolated s.params (statusWord s x) = false →
      (∀ e, EnableRun s none 0 b es (some e) → s.bus = .ok x :: (b ++ more) →
        ∃ u, exec .autoSetupMotorParameters s = .next u ∧
          runExec .autoSetupMotorParameters (b.length + 1) u = .next
            (failed s more s.timer (readEvent s .sw x :: es) (protocolCode e) s.res s.ctrl)) ∧
      ∀ (c d : DWord) (xs : List DWord) (left : Nat), EnableRun s none 0 b es none →
        (∀ z ∈ xs, (statusWord s z).getLsbD 12 = false) → s.timer = xs.length + left →
        (∀ z w, (statusWord s z).getLsbD 12 = true → xs.length < s.params.autoSetupPollMax →
          s.bus = .ok x :: (b ++ .ok c :: .ok d :: (answers xs ++ .ok z :: .ok w :: more)) →
          ∃ u, exec .autoSetupMotorParameters s = .next u ∧
            runExec .autoSetupMotorParameters (b.length + 2 * xs.length + 5) u = .next
              (succeeded s more left
                (readEvent s .sw x :: (es ++ (cwEvents s .startSet c ++
                  (pollEvents s .sw s.params.autoSetupPollMs xs ++
                    [readEvent s .sw z, writeEvent s .cw 0x00000000])))) s.res s.ctrl)) ∧
        (xs.length = s.params.autoSetupPollMax →
          s.bus = .ok x :: (b ++ .ok c :: .ok d :: (answers xs ++ more)) →
          ∃ u, exec .autoSetupMotorParameters s = .next u ∧
            runExec .autoSetupMotorParameters (b.length + 2 * xs.length + 3) u = .next
              (failed s more left
                (readEvent s .sw x :: (es ++ (cwEvents s .startSet c ++
                  pollEvents s .sw s.params.autoSetupPollMs xs))) 0x21 s.res s.ctrl)))

/-! ## The control-word micro-ops -/

/-- Each of the 17 micro-ops, where the sequencer stands before it: `CW_CLEAR_ALL` is one plain write of 0, every other one
a control-word read and the write of the word its masks give; nothing else changes but the working value (R142, R167). -/
def Obligations.MicroOpActions : Prop :=
  ∀ (s : State) (q : Sequencer) (rest : List Stmt) (more : List Answer), s.seq = some q →
    (∀ (i : Instr) (op : CwOp) (x y : DWord),
      (i, op) ∈ [(.cwShutdown, .shutdown), (.cwSwitchOn, .switchOn), (.cwEnableOperation, .enableOperation),
        (.cwDisableOperation, .disableOperation), (.cwDisableVoltage, .disableVoltage), (.cwQuickStop, .quickStop),
        (.cwQsRecover1, .qsRecover1), (.cwFaultResetLow, .faultResetLow), (.cwFaultResetHigh, .faultResetHigh),
        (.cwStartSet, .startSet), (.cwStartClear, .startClear), (.cwHaltSet, .haltSet), (.cwHaltClear, .haltClear),
        (.cwPpTargetAbs, .ppTargetAbs), (.cwPpTargetRel, .ppTargetRel), (.cwPpStart, .ppStart)] →
      q.step = .before (.act (.cwRead op) :: .act (.cwWrite op) :: rest) → s.bus = .ok x :: .ok y :: more →
      ∃ u, exec i s = .next u ∧ exec i u = .next
        { s with
          bus := more
          trace := s.trace ++ [readEvent s .cw x,
            writeEvent s .cw
              (((word16 (readValue s .cw x) ||| cwSet op) &&& ~~~cwClr op).setWidth 32)]
          seq := some { q with v := readValue s .cw x, step := .before rest } }) ∧
    (∀ y, q.step = .before (.act (.cwWrite .clearAll) :: rest) → s.bus = .ok y :: more →
      exec .cwClearAll s = .next
        { s with
          bus := more
          trace := s.trace ++ [writeEvent s .cw 0x00000000]
          seq := some { q with step := .before rest } })

/-! ## Errors, results and frames of every instruction -/

/-- Whatever the instruction: when the next answer is an error, the step leaves the answer unused, or it ends the command
with `IoError` and the payload in `RES[0]`, with no other word of `RES` changed. `CTRL` becomes None exactly when the
sequencer carries a binding, or the command just issued is a BIND_*, and is unchanged otherwise (R16, R228, R352,
R355). -/
def Obligations.IoErrorEndsTheCommand : Prop :=
  ∀ (i : Instr) (s t : State) (e : Word) (more : List Answer), s.bus = .error e :: more → exec i s = .next t →
    t.bus = s.bus ∨
    ∃ (ev : Event) (c : Ctrl), t = failed s more s.timer [ev] 0x01 (s.res.set 0 e) c ∧
      ((∃ a w, ev = .readFailed s.dev a w) ∨ ∃ a w v, ev = .writeFailed s.dev a w v) ∧ (c = s.ctrl ∨ c = .unbound) ∧
      (∀ q todo, s.seq = some q → q.step = .before todo → c = if q.bind.isSome then .unbound else s.ctrl) ∧
      (Issued s →
        c = if i ∈ [.bindHoming, .bindProfilePosition, .bindVelocity, .bindAutoSetup] then .unbound else s.ctrl)

/-- Whatever the instruction: while the command goes on, `STATUS`, `RES` and `CTRL` keep their values; when it ends with a
protocol error, `RES` keeps its values and no access is made in that step (R32, R353, R355, R356). -/
def Obligations.ResultsOnlyAtTheEnd : Prop :=
  ∀ (i : Instr) (s t : State), exec i s = .next t →
    (t.seq.isSome = true → t.status = s.status ∧ t.res = s.res ∧ t.ctrl = s.ctrl ∧ t.port = s.port) ∧
    (s.seq.isSome = true → t.seq = none → t.port = .idle ∧ t.completed = true ∧
      (t.status ≠ 0x00 → t.status ≠ 0x01 → t.res = s.res ∧ t.trace = s.trace ∧ t.bus = s.bus))

/-- Whatever the instruction, one step makes at most one action: no event; or one access, using one answer; or one wait,
using one timer report (R16, R17, R36, R81). The constants, the latched frame and the host's moves stay (R32, R33,
R394). -/
def Obligations.OneActionPerStep : Prop :=
  ∀ (i : Instr) (s t : State), exec i s = .next t →
    ((t.trace = s.trace ∧ t.bus = s.bus ∧ t.timer = s.timer) ∨
      (∃ (a : Answer) (ev : Event), s.bus = a :: t.bus ∧ t.timer = s.timer ∧ t.trace = s.trace ++ [ev] ∧
        ∀ ms, ev ≠ .wait ms) ∨
      ∃ ms, t.bus = s.bus ∧ s.timer = t.timer + 1 ∧ t.trace = s.trace ++ [.wait ms]) ∧
    t.params = s.params ∧ t.dev = s.dev ∧ t.opc = s.opc ∧ t.arg = s.arg ∧ t.host = s.host ∧ t.hostSeen = s.hostSeen

/-- A core whose `CTRL` is held never stops the machine: only a host read before the first completion can (R34, R50).
That a later read of a `RES` word no command has written does not stop it is the model's choice (log entry 10). -/
def Obligations.CoreNeverStops : Prop :=
  ∀ s : State, CtrlInv s →
    (s.completed = true ∨ ∀ m rest, s.host = m :: rest → m ≠ .readStatus ∧ ∀ k, m ≠ .readRes k) →
    ∃ t, step s = .next t

/-- Only BIND_* and UNBIND write `CTRL`: in a state whose sequencer carries a binding only under one of their opcodes, a
step keeps that so, and it changes `CTRL` only under one of their opcodes (R34, R228, R229). -/
def Obligations.OnlyBindWritesCtrl : Prop :=
  ∀ s t : State,
    (∀ q, s.seq = some q → q.bind.isSome = true → 0x30 ≤ s.opc.toNat ∧ s.opc.toNat ≤ 0x34) →
    (s.port = .busy → s.seq.isSome = true) → (s.port = .idle → s.seq = none) → step s = .next t →
    (∀ q, t.seq = some q → q.bind.isSome = true → 0x30 ≤ t.opc.toNat ∧ t.opc.toNat ≤ 0x34) ∧
    (t.ctrl ≠ s.ctrl → 0x30 ≤ s.opc.toNat ∧ s.opc.toNat ≤ 0x34)

/-! ## Invariants every step keeps -/

/-- Every step keeps: a sequencer exists exactly while `PORT` is BUSY (R36, R50); `CTRL` is a held value (R34); `STATUS`
is a code of R106. -/
def Obligations.CoreInvariantsKept : Prop :=
  ∀ s t : State, step s = .next t →
    (HandshakeInv s → HandshakeInv t) ∧ (CtrlInv s → CtrlInv t) ∧ (StatusInv s → StatusInv t) ∧
    t.params = s.params ∧ t.dev = s.dev ∧ (s.port = .busy → t.port = .busy → t.opc = s.opc ∧ t.arg = s.arg)

/-- Every step keeps: the text to come is legal, the fault counter stays within its range, and every event recorded is a
read or write of a register the core may name, at its address and width, or a wait of one of the two intervals (R37, R49,
R72, R73, R140, R375). -/
def Obligations.TextAndTraceLegal : Prop :=
  ∀ s t : State, TextInv s → TraceInv s → step s = .next t → TextInv t ∧ TraceInv t

/-- The core never writes the status word, nor any other register at its address (R40, R49); the default registers keep
that address apart. -/
def Obligations.StatusWordNeverWritten : Prop :=
  StatusApart defaultParams ∧
  ∀ s t : State, TextInv s → StatusApart s.params → step s = .next t →
    ∀ e ∈ t.trace, e ∈ s.trace ∨ ¬ e.writesTo (regParam s.params .sw).addr
end

