-- ==== Sys2Proof/Laws/State.lean ====
section
/-! SUPPORT. What each update of the state leaves in each field, one lemma per field per update, all true by
unfolding, so that no later proof unfolds a record update. -/

namespace Sys2Proof.Machine

/-! ## raise -/

@[simp] theorem raise_params (e : Raise) (q : Sequencer) (s : State) :
    (raise e q s).params = s.params := rfl
@[simp] theorem raise_dev (e : Raise) (q : Sequencer) (s : State) :
    (raise e q s).dev = s.dev := rfl
@[simp] theorem raise_ctrl (e : Raise) (q : Sequencer) (s : State) :
    (raise e q s).ctrl = if q.bind.isSome then .unbound else s.ctrl := rfl
@[simp] theorem raise_opc (e : Raise) (q : Sequencer) (s : State) :
    (raise e q s).opc = s.opc := rfl
@[simp] theorem raise_arg (e : Raise) (q : Sequencer) (s : State) :
    (raise e q s).arg = s.arg := rfl
@[simp] theorem raise_status (e : Raise) (q : Sequencer) (s : State) :
    (raise e q s).status = raiseCode e := rfl
@[simp] theorem raise_res (e : Raise) (q : Sequencer) (s : State) :
    (raise e q s).res = raiseResults e s.res := rfl
@[simp] theorem raise_port (e : Raise) (q : Sequencer) (s : State) :
    (raise e q s).port = .idle := rfl
@[simp] theorem raise_seq (e : Raise) (q : Sequencer) (s : State) :
    (raise e q s).seq = none := rfl
@[simp] theorem raise_trace (e : Raise) (q : Sequencer) (s : State) :
    (raise e q s).trace = s.trace := rfl
@[simp] theorem raise_bus (e : Raise) (q : Sequencer) (s : State) :
    (raise e q s).bus = s.bus := rfl
@[simp] theorem raise_timer (e : Raise) (q : Sequencer) (s : State) :
    (raise e q s).timer = s.timer := rfl
@[simp] theorem raise_host (e : Raise) (q : Sequencer) (s : State) :
    (raise e q s).host = s.host := rfl
@[simp] theorem raise_hostSeen (e : Raise) (q : Sequencer) (s : State) :
    (raise e q s).hostSeen = s.hostSeen := rfl
@[simp] theorem raise_completed (e : Raise) (q : Sequencer) (s : State) :
    (raise e q s).completed = true := rfl

/-! ## returnOk -/

@[simp] theorem returnOk_params (q : Sequencer) (s : State) :
    (returnOk q s).params = s.params := rfl
@[simp] theorem returnOk_dev (q : Sequencer) (s : State) :
    (returnOk q s).dev = s.dev := rfl
@[simp] theorem returnOk_ctrl (q : Sequencer) (s : State) :
    (returnOk q s).ctrl = q.bind.getD s.ctrl := rfl
@[simp] theorem returnOk_opc (q : Sequencer) (s : State) :
    (returnOk q s).opc = s.opc := rfl
@[simp] theorem returnOk_arg (q : Sequencer) (s : State) :
    (returnOk q s).arg = s.arg := rfl
@[simp] theorem returnOk_status (q : Sequencer) (s : State) :
    (returnOk q s).status = statusOk := rfl
@[simp] theorem returnOk_res (q : Sequencer) (s : State) :
    (returnOk q s).res = commit q.staged s.res := rfl
@[simp] theorem returnOk_port (q : Sequencer) (s : State) :
    (returnOk q s).port = .idle := rfl
@[simp] theorem returnOk_seq (q : Sequencer) (s : State) :
    (returnOk q s).seq = none := rfl
@[simp] theorem returnOk_trace (q : Sequencer) (s : State) :
    (returnOk q s).trace = s.trace := rfl
@[simp] theorem returnOk_bus (q : Sequencer) (s : State) :
    (returnOk q s).bus = s.bus := rfl
@[simp] theorem returnOk_timer (q : Sequencer) (s : State) :
    (returnOk q s).timer = s.timer := rfl
@[simp] theorem returnOk_host (q : Sequencer) (s : State) :
    (returnOk q s).host = s.host := rfl
@[simp] theorem returnOk_hostSeen (q : Sequencer) (s : State) :
    (returnOk q s).hostSeen = s.hostSeen := rfl
@[simp] theorem returnOk_completed (q : Sequencer) (s : State) :
    (returnOk q s).completed = true := rfl

/-! ## afterRead -/

@[simp] theorem afterRead_params (r : RegName) (x : DWord) (more : List Answer) (rest : List Stmt) (q : Sequencer) (s : State) :
    (afterRead r x more rest q s).params = s.params := rfl
@[simp] theorem afterRead_dev (r : RegName) (x : DWord) (more : List Answer) (rest : List Stmt) (q : Sequencer) (s : State) :
    (afterRead r x more rest q s).dev = s.dev := rfl
@[simp] theorem afterRead_ctrl (r : RegName) (x : DWord) (more : List Answer) (rest : List Stmt) (q : Sequencer) (s : State) :
    (afterRead r x more rest q s).ctrl = s.ctrl := rfl
@[simp] theorem afterRead_opc (r : RegName) (x : DWord) (more : List Answer) (rest : List Stmt) (q : Sequencer) (s : State) :
    (afterRead r x more rest q s).opc = s.opc := rfl
@[simp] theorem afterRead_arg (r : RegName) (x : DWord) (more : List Answer) (rest : List Stmt) (q : Sequencer) (s : State) :
    (afterRead r x more rest q s).arg = s.arg := rfl
@[simp] theorem afterRead_status (r : RegName) (x : DWord) (more : List Answer) (rest : List Stmt) (q : Sequencer) (s : State) :
    (afterRead r x more rest q s).status = s.status := rfl
@[simp] theorem afterRead_res (r : RegName) (x : DWord) (more : List Answer) (rest : List Stmt) (q : Sequencer) (s : State) :
    (afterRead r x more rest q s).res = s.res := rfl
@[simp] theorem afterRead_port (r : RegName) (x : DWord) (more : List Answer) (rest : List Stmt) (q : Sequencer) (s : State) :
    (afterRead r x more rest q s).port = s.port := rfl
@[simp] theorem afterRead_seq (r : RegName) (x : DWord) (more : List Answer) (rest : List Stmt) (q : Sequencer) (s : State) :
    (afterRead r x more rest q s).seq = some { q with v := narrow (regParam s.params r) x, step := .before rest } := rfl
@[simp] theorem afterRead_trace (r : RegName) (x : DWord) (more : List Answer) (rest : List Stmt) (q : Sequencer) (s : State) :
    (afterRead r x more rest q s).trace = s.trace ++ [.read s.dev (regParam s.params r).addr (regParam s.params r).width
      (lowBits (regParam s.params r).width (x.setWidth 32))] := rfl
@[simp] theorem afterRead_bus (r : RegName) (x : DWord) (more : List Answer) (rest : List Stmt) (q : Sequencer) (s : State) :
    (afterRead r x more rest q s).bus = more := rfl
@[simp] theorem afterRead_timer (r : RegName) (x : DWord) (more : List Answer) (rest : List Stmt) (q : Sequencer) (s : State) :
    (afterRead r x more rest q s).timer = s.timer := rfl
@[simp] theorem afterRead_host (r : RegName) (x : DWord) (more : List Answer) (rest : List Stmt) (q : Sequencer) (s : State) :
    (afterRead r x more rest q s).host = s.host := rfl
@[simp] theorem afterRead_hostSeen (r : RegName) (x : DWord) (more : List Answer) (rest : List Stmt) (q : Sequencer) (s : State) :
    (afterRead r x more rest q s).hostSeen = s.hostSeen := rfl
@[simp] theorem afterRead_completed (r : RegName) (x : DWord) (more : List Answer) (rest : List Stmt) (q : Sequencer) (s : State) :
    (afterRead r x more rest q s).completed = s.completed := rfl

/-! ## afterReadFailed -/

@[simp] theorem afterReadFailed_params (r : RegName) (more : List Answer) (s : State) :
    (afterReadFailed r more s).params = s.params := rfl
@[simp] theorem afterReadFailed_dev (r : RegName) (more : List Answer) (s : State) :
    (afterReadFailed r more s).dev = s.dev := rfl
@[simp] theorem afterReadFailed_ctrl (r : RegName) (more : List Answer) (s : State) :
    (afterReadFailed r more s).ctrl = s.ctrl := rfl
@[simp] theorem afterReadFailed_opc (r : RegName) (more : List Answer) (s : State) :
    (afterReadFailed r more s).opc = s.opc := rfl
@[simp] theorem afterReadFailed_arg (r : RegName) (more : List Answer) (s : State) :
    (afterReadFailed r more s).arg = s.arg := rfl
@[simp] theorem afterReadFailed_status (r : RegName) (more : List Answer) (s : State) :
    (afterReadFailed r more s).status = s.status := rfl
@[simp] theorem afterReadFailed_res (r : RegName) (more : List Answer) (s : State) :
    (afterReadFailed r more s).res = s.res := rfl
@[simp] theorem afterReadFailed_port (r : RegName) (more : List Answer) (s : State) :
    (afterReadFailed r more s).port = s.port := rfl
@[simp] theorem afterReadFailed_seq (r : RegName) (more : List Answer) (s : State) :
    (afterReadFailed r more s).seq = s.seq := rfl
@[simp] theorem afterReadFailed_trace (r : RegName) (more : List Answer) (s : State) :
    (afterReadFailed r more s).trace = s.trace ++ [.readFailed s.dev (regParam s.params r).addr (regParam s.params r).width] := rfl
@[simp] theorem afterReadFailed_bus (r : RegName) (more : List Answer) (s : State) :
    (afterReadFailed r more s).bus = more := rfl
@[simp] theorem afterReadFailed_timer (r : RegName) (more : List Answer) (s : State) :
    (afterReadFailed r more s).timer = s.timer := rfl
@[simp] theorem afterReadFailed_host (r : RegName) (more : List Answer) (s : State) :
    (afterReadFailed r more s).host = s.host := rfl
@[simp] theorem afterReadFailed_hostSeen (r : RegName) (more : List Answer) (s : State) :
    (afterReadFailed r more s).hostSeen = s.hostSeen := rfl
@[simp] theorem afterReadFailed_completed (r : RegName) (more : List Answer) (s : State) :
    (afterReadFailed r more s).completed = s.completed := rfl

/-! ## afterWrite -/

@[simp] theorem afterWrite_params (r : RegName) (x : Word) (more : List Answer) (rest : List Stmt) (q : Sequencer) (s : State) :
    (afterWrite r x more rest q s).params = s.params := rfl
@[simp] theorem afterWrite_dev (r : RegName) (x : Word) (more : List Answer) (rest : List Stmt) (q : Sequencer) (s : State) :
    (afterWrite r x more rest q s).dev = s.dev := rfl
@[simp] theorem afterWrite_ctrl (r : RegName) (x : Word) (more : List Answer) (rest : List Stmt) (q : Sequencer) (s : State) :
    (afterWrite r x more rest q s).ctrl = s.ctrl := rfl
@[simp] theorem afterWrite_opc (r : RegName) (x : Word) (more : List Answer) (rest : List Stmt) (q : Sequencer) (s : State) :
    (afterWrite r x more rest q s).opc = s.opc := rfl
@[simp] theorem afterWrite_arg (r : RegName) (x : Word) (more : List Answer) (rest : List Stmt) (q : Sequencer) (s : State) :
    (afterWrite r x more rest q s).arg = s.arg := rfl
@[simp] theorem afterWrite_status (r : RegName) (x : Word) (more : List Answer) (rest : List Stmt) (q : Sequencer) (s : State) :
    (afterWrite r x more rest q s).status = s.status := rfl
@[simp] theorem afterWrite_res (r : RegName) (x : Word) (more : List Answer) (rest : List Stmt) (q : Sequencer) (s : State) :
    (afterWrite r x more rest q s).res = s.res := rfl
@[simp] theorem afterWrite_port (r : RegName) (x : Word) (more : List Answer) (rest : List Stmt) (q : Sequencer) (s : State) :
    (afterWrite r x more rest q s).port = s.port := rfl
@[simp] theorem afterWrite_seq (r : RegName) (x : Word) (more : List Answer) (rest : List Stmt) (q : Sequencer) (s : State) :
    (afterWrite r x more rest q s).seq = some { q with step := .before rest } := rfl
@[simp] theorem afterWrite_trace (r : RegName) (x : Word) (more : List Answer) (rest : List Stmt) (q : Sequencer) (s : State) :
    (afterWrite r x more rest q s).trace = s.trace ++ [.write s.dev (regParam s.params r).addr (regParam s.params r).width
      (lowBits (regParam s.params r).width x)] := rfl
@[simp] theorem afterWrite_bus (r : RegName) (x : Word) (more : List Answer) (rest : List Stmt) (q : Sequencer) (s : State) :
    (afterWrite r x more rest q s).bus = more := rfl
@[simp] theorem afterWrite_timer (r : RegName) (x : Word) (more : List Answer) (rest : List Stmt) (q : Sequencer) (s : State) :
    (afterWrite r x more rest q s).timer = s.timer := rfl
@[simp] theorem afterWrite_host (r : RegName) (x : Word) (more : List Answer) (rest : List Stmt) (q : Sequencer) (s : State) :
    (afterWrite r x more rest q s).host = s.host := rfl
@[simp] theorem afterWrite_hostSeen (r : RegName) (x : Word) (more : List Answer) (rest : List Stmt) (q : Sequencer) (s : State) :
    (afterWrite r x more rest q s).hostSeen = s.hostSeen := rfl
@[simp] theorem afterWrite_completed (r : RegName) (x : Word) (more : List Answer) (rest : List Stmt) (q : Sequencer) (s : State) :
    (afterWrite r x more rest q s).completed = s.completed := rfl

/-! ## afterWriteFailed -/

@[simp] theorem afterWriteFailed_params (r : RegName) (x : Word) (more : List Answer) (s : State) :
    (afterWriteFailed r x more s).params = s.params := rfl
@[simp] theorem afterWriteFailed_dev (r : RegName) (x : Word) (more : List Answer) (s : State) :
    (afterWriteFailed r x more s).dev = s.dev := rfl
@[simp] theorem afterWriteFailed_ctrl (r : RegName) (x : Word) (more : List Answer) (s : State) :
    (afterWriteFailed r x more s).ctrl = s.ctrl := rfl
@[simp] theorem afterWriteFailed_opc (r : RegName) (x : Word) (more : List Answer) (s : State) :
    (afterWriteFailed r x more s).opc = s.opc := rfl
@[simp] theorem afterWriteFailed_arg (r : RegName) (x : Word) (more : List Answer) (s : State) :
    (afterWriteFailed r x more s).arg = s.arg := rfl
@[simp] theorem afterWriteFailed_status (r : RegName) (x : Word) (more : List Answer) (s : State) :
    (afterWriteFailed r x more s).status = s.status := rfl
@[simp] theorem afterWriteFailed_res (r : RegName) (x : Word) (more : List Answer) (s : State) :
    (afterWriteFailed r x more s).res = s.res := rfl
@[simp] theorem afterWriteFailed_port (r : RegName) (x : Word) (more : List Answer) (s : State) :
    (afterWriteFailed r x more s).port = s.port := rfl
@[simp] theorem afterWriteFailed_seq (r : RegName) (x : Word) (more : List Answer) (s : State) :
    (afterWriteFailed r x more s).seq = s.seq := rfl
@[simp] theorem afterWriteFailed_trace (r : RegName) (x : Word) (more : List Answer) (s : State) :
    (afterWriteFailed r x more s).trace = s.trace ++ [.writeFailed s.dev (regParam s.params r).addr (regParam s.params r).width
      (lowBits (regParam s.params r).width x)] := rfl
@[simp] theorem afterWriteFailed_bus (r : RegName) (x : Word) (more : List Answer) (s : State) :
    (afterWriteFailed r x more s).bus = more := rfl
@[simp] theorem afterWriteFailed_timer (r : RegName) (x : Word) (more : List Answer) (s : State) :
    (afterWriteFailed r x more s).timer = s.timer := rfl
@[simp] theorem afterWriteFailed_host (r : RegName) (x : Word) (more : List Answer) (s : State) :
    (afterWriteFailed r x more s).host = s.host := rfl
@[simp] theorem afterWriteFailed_hostSeen (r : RegName) (x : Word) (more : List Answer) (s : State) :
    (afterWriteFailed r x more s).hostSeen = s.hostSeen := rfl
@[simp] theorem afterWriteFailed_completed (r : RegName) (x : Word) (more : List Answer) (s : State) :
    (afterWriteFailed r x more s).completed = s.completed := rfl

/-! ## afterWait -/

@[simp] theorem afterWait_params (ms left : Nat) (rest : List Stmt) (q : Sequencer) (s : State) :
    (afterWait ms left rest q s).params = s.params := rfl
@[simp] theorem afterWait_dev (ms left : Nat) (rest : List Stmt) (q : Sequencer) (s : State) :
    (afterWait ms left rest q s).dev = s.dev := rfl
@[simp] theorem afterWait_ctrl (ms left : Nat) (rest : List Stmt) (q : Sequencer) (s : State) :
    (afterWait ms left rest q s).ctrl = s.ctrl := rfl
@[simp] theorem afterWait_opc (ms left : Nat) (rest : List Stmt) (q : Sequencer) (s : State) :
    (afterWait ms left rest q s).opc = s.opc := rfl
@[simp] theorem afterWait_arg (ms left : Nat) (rest : List Stmt) (q : Sequencer) (s : State) :
    (afterWait ms left rest q s).arg = s.arg := rfl
@[simp] theorem afterWait_status (ms left : Nat) (rest : List Stmt) (q : Sequencer) (s : State) :
    (afterWait ms left rest q s).status = s.status := rfl
@[simp] theorem afterWait_res (ms left : Nat) (rest : List Stmt) (q : Sequencer) (s : State) :
    (afterWait ms left rest q s).res = s.res := rfl
@[simp] theorem afterWait_port (ms left : Nat) (rest : List Stmt) (q : Sequencer) (s : State) :
    (afterWait ms left rest q s).port = s.port := rfl
@[simp] theorem afterWait_seq (ms left : Nat) (rest : List Stmt) (q : Sequencer) (s : State) :
    (afterWait ms left rest q s).seq = some { q with step := .before rest } := rfl
@[simp] theorem afterWait_trace (ms left : Nat) (rest : List Stmt) (q : Sequencer) (s : State) :
    (afterWait ms left rest q s).trace = s.trace ++ [.wait ms] := rfl
@[simp] theorem afterWait_bus (ms left : Nat) (rest : List Stmt) (q : Sequencer) (s : State) :
    (afterWait ms left rest q s).bus = s.bus := rfl
@[simp] theorem afterWait_timer (ms left : Nat) (rest : List Stmt) (q : Sequencer) (s : State) :
    (afterWait ms left rest q s).timer = left := rfl
@[simp] theorem afterWait_host (ms left : Nat) (rest : List Stmt) (q : Sequencer) (s : State) :
    (afterWait ms left rest q s).host = s.host := rfl
@[simp] theorem afterWait_hostSeen (ms left : Nat) (rest : List Stmt) (q : Sequencer) (s : State) :
    (afterWait ms left rest q s).hostSeen = s.hostSeen := rfl
@[simp] theorem afterWait_completed (ms left : Nat) (rest : List Stmt) (q : Sequencer) (s : State) :
    (afterWait ms left rest q s).completed = s.completed := rfl

/-! ## issue -/

@[simp] theorem issue_params (f : Frame) (s : State) :
    (issue f s).params = s.params := rfl
@[simp] theorem issue_dev (f : Frame) (s : State) :
    (issue f s).dev = s.dev := rfl
@[simp] theorem issue_ctrl (f : Frame) (s : State) :
    (issue f s).ctrl = s.ctrl := rfl
@[simp] theorem issue_opc (f : Frame) (s : State) :
    (issue f s).opc = f.opc := rfl
@[simp] theorem issue_arg (f : Frame) (s : State) :
    (issue f s).arg = f.arg := rfl
@[simp] theorem issue_status (f : Frame) (s : State) :
    (issue f s).status = s.status := rfl
@[simp] theorem issue_res (f : Frame) (s : State) :
    (issue f s).res = s.res := rfl
@[simp] theorem issue_port (f : Frame) (s : State) :
    (issue f s).port = .busy := rfl
@[simp] theorem issue_seq (f : Frame) (s : State) :
    (issue f s).seq = some .fresh := rfl
@[simp] theorem issue_trace (f : Frame) (s : State) :
    (issue f s).trace = s.trace := rfl
@[simp] theorem issue_bus (f : Frame) (s : State) :
    (issue f s).bus = s.bus := rfl
@[simp] theorem issue_timer (f : Frame) (s : State) :
    (issue f s).timer = s.timer := rfl
@[simp] theorem issue_host (f : Frame) (s : State) :
    (issue f s).host = s.host := rfl
@[simp] theorem issue_hostSeen (f : Frame) (s : State) :
    (issue f s).hostSeen = s.hostSeen := rfl
@[simp] theorem issue_completed (f : Frame) (s : State) :
    (issue f s).completed = s.completed := rfl

/-! ## writePort -/

@[simp] theorem writePort_busy (f : Frame) (s : State) (h : s.port = .busy) : writePort f s = s := by
  simp [writePort, h]

@[simp] theorem writePort_idle (f : Frame) (s : State) (h : s.port = .idle) :
    writePort f s = { s with opc := f.opc, arg := f.arg } := by
  simp [writePort, h]

end Sys2Proof.Machine
end

