-- ==== Sys2Proof/Laws/Ops.lean ====
section
/-! SUPPORT. What each shared operation can do, said once: the bus and wait primitives, the sequencer, the gate. Later
proofs cite these instead of unfolding the operations. -/

namespace Sys2Proof.Machine

/-! ## Reads, writes, waits -/

/-- A register read waits, returns a value, or ends the command with the collaborator's error. -/
theorem memRead_cases {r : RegName} {rest : List Stmt} {q : Sequencer} {s t : State}
    (h : memRead r rest q s = .next t) :
    (s.bus = [] ∧ t = s) ∨
    (∃ x more, s.bus = .ok x :: more ∧ t = afterRead r x more rest q s) ∨
    (∃ e more, s.bus = .error e :: more ∧ t = raise (.ioError e) q (afterReadFailed r more s)) := by
  unfold memRead at h
  split at h
  next hb => exact .inl ⟨hb, (Host.Outcome.next.inj h).symm⟩
  next x more hb => exact .inr (.inl ⟨x, more, hb, (Host.Outcome.next.inj h).symm⟩)
  next e more hb => exact .inr (.inr ⟨e, more, hb, (Host.Outcome.next.inj h).symm⟩)

/-- A register write waits, is done, or ends the command with the collaborator's error. -/
theorem memWrite_cases {r : RegName} {x : Word} {rest : List Stmt} {q : Sequencer} {s t : State}
    (h : memWrite r x rest q s = .next t) :
    (s.bus = [] ∧ t = s) ∨
    (∃ y more, s.bus = .ok y :: more ∧ t = afterWrite r x more rest q s) ∨
    (∃ e more, s.bus = .error e :: more ∧ t = raise (.ioError e) q (afterWriteFailed r x more s)) := by
  unfold memWrite at h
  split at h
  next hb => exact .inl ⟨hb, (Host.Outcome.next.inj h).symm⟩
  next y more hb => exact .inr (.inl ⟨y, more, hb, (Host.Outcome.next.inj h).symm⟩)
  next e more hb => exact .inr (.inr ⟨e, more, hb, (Host.Outcome.next.inj h).symm⟩)

/-- A wait goes on, or ends with one timer report used. -/
theorem waitMs_cases {ms : Nat} {rest : List Stmt} {q : Sequencer} {s t : State}
    (h : waitMs ms rest q s = .next t) :
    (s.timer = 0 ∧ t = s) ∨ (∃ left, s.timer = left + 1 ∧ t = afterWait ms left rest q s) := by
  unfold waitMs at h
  split at h
  next hb => exact .inl ⟨hb, (Host.Outcome.next.inj h).symm⟩
  next left hb => exact .inr ⟨left, hb, (Host.Outcome.next.inj h).symm⟩

@[simp] theorem memRead_ok {r : RegName} {x : DWord} {more : List Answer} {rest : List Stmt} {q : Sequencer} {s : State}
    (h : s.bus = .ok x :: more) : memRead r rest q s = .next (afterRead r x more rest q s) := by
  simp [memRead, h]

@[simp] theorem memRead_error {r : RegName} {e : Word} {more : List Answer} {rest : List Stmt} {q : Sequencer}
    {s : State} (h : s.bus = .error e :: more) :
    memRead r rest q s = .next (raise (.ioError e) q (afterReadFailed r more s)) := by
  simp [memRead, h]

@[simp] theorem memRead_waits {r : RegName} {rest : List Stmt} {q : Sequencer} {s : State} (h : s.bus = []) :
    memRead r rest q s = .next s := by
  simp [memRead, h]

@[simp] theorem memWrite_ok {r : RegName} {x : Word} {y : DWord} {more : List Answer} {rest : List Stmt} {q : Sequencer}
    {s : State} (h : s.bus = .ok y :: more) : memWrite r x rest q s = .next (afterWrite r x more rest q s) := by
  simp [memWrite, h]

@[simp] theorem memWrite_error {r : RegName} {x e : Word} {more : List Answer} {rest : List Stmt} {q : Sequencer}
    {s : State} (h : s.bus = .error e :: more) :
    memWrite r x rest q s = .next (raise (.ioError e) q (afterWriteFailed r x more s)) := by
  simp [memWrite, h]

@[simp] theorem memWrite_waits {r : RegName} {x : Word} {rest : List Stmt} {q : Sequencer} {s : State}
    (h : s.bus = []) : memWrite r x rest q s = .next s := by
  simp [memWrite, h]

@[simp] theorem waitMs_done {ms left : Nat} {rest : List Stmt} {q : Sequencer} {s : State} (h : s.timer = left + 1) :
    waitMs ms rest q s = .next (afterWait ms left rest q s) := by
  simp [waitMs, h]

@[simp] theorem waitMs_waits {ms : Nat} {rest : List Stmt} {q : Sequencer} {s : State} (h : s.timer = 0) :
    waitMs ms rest q s = .next s := by
  simp [waitMs, h]

/-- An action never stops the machine. -/
theorem perform_next (a : Act) (rest : List Stmt) (q : Sequencer) (s : State) : ∃ t, perform a rest q s = .next t := by
  cases a <;> simp only [perform]
  case wait => unfold waitMs; split <;> exact ⟨_, rfl⟩
  case read | cwRead => unfold memRead; split <;> exact ⟨_, rfl⟩
  all_goals unfold memWrite; split <;> exact ⟨_, rfl⟩

/-! ## The sequencer -/

@[simp] theorem advance_nil (q : Sequencer) (s : State) : advance [] q s = .next (returnOk q s) := rfl

@[simp] theorem advance_act (a : Act) (rest : List Stmt) (q : Sequencer) (s : State) :
    advance (.act a :: rest) q s = perform a rest q s := rfl

theorem advance_test_raise {t : Test} {rest : List Stmt} {q : Sequencer} {s : State} {e : ProtocolError}
    (h : verdict s.params q t = .raise e) :
    advance (.test t :: rest) q s = .next (raise (.protocol e) q s) := by
  simp [advance, h]

theorem advance_test_pass {t : Test} {rest : List Stmt} {q q' : Sequencer} {s : State}
    (h : verdict s.params q t = .pass q') : advance (.test t :: rest) q s = advance rest q' s := by
  simp [advance, h]

theorem advance_test_act {t : Test} {rest more : List Stmt} {a : Act} {q q' : Sequencer} {s : State}
    (h : verdict s.params q t = .act a more q') :
    advance (.test t :: rest) q s = perform a (more ++ rest) q' s := by
  simp [advance, h]

/-- A step of a text never stops the machine. -/
theorem advance_next (todo : List Stmt) (q : Sequencer) (s : State) : ∃ t, advance todo q s = .next t := by
  induction todo generalizing q with
  | nil => exact ⟨_, rfl⟩
  | cons st rest ih =>
    cases st with
    | act a => exact perform_next a rest q s
    | test t =>
      cases h : verdict s.params q t with
      | raise e => exact ⟨_, advance_test_raise h⟩
      | pass q' => rw [advance_test_pass h]; exact ih q'
      | act a more q' => rw [advance_test_act h]; exact perform_next a _ q' s

/-! ## The gate -/

@[simp] theorem gateCheck_any (c : Ctrl) : gateCheck .any c = .allowed := rfl

theorem gateCheck_needs_self {c : Ctrl} (h : c.Held) : gateCheck (.needs c) c = .allowed := by
  cases c <;> first | rfl | exact h.elim

theorem gateCheck_needs_other {want c : Ctrl} (h : c.Held) (hne : c ≠ want) :
    gateCheck (.needs want) c = .illegal := by
  cases c <;> first | exact h.elim | simp [gateCheck, hne]

theorem gateCheck_held {c : Ctrl} (h : c.Held) : gateCheck .held c = .allowed := by
  cases c <;> first | rfl | exact h.elim

/-! ## Commands -/

/-- A command just issued that the gate lets pass begins its text. -/
theorem runCommand_issued {g : Gate} {b : Option Ctrl} {text : List Stmt} {s : State} (h : s.seq = some .fresh)
    (hg : gateCheck g s.ctrl = .allowed) :
    runCommand g b text s = advance text { Sequencer.fresh with bind := b } s := by
  simp [runCommand, h, hg, Sequencer.fresh]

/-- A command just issued that the gate refuses ends with `IllegalCommand` and no bus access. -/
theorem runCommand_illegal {g : Gate} {b : Option Ctrl} {text : List Stmt} {s : State} (h : s.seq = some .fresh)
    (hg : gateCheck g s.ctrl = .illegal) :
    runCommand g b text s = .next (raise (.protocol .illegalCommand) { Sequencer.fresh with bind := b } s) := by
  simp [runCommand, h, hg, Sequencer.fresh]

/-- A command under way goes on where it stands, whatever its gate and text. -/
theorem runCommand_before {g : Gate} {b : Option Ctrl} {text todo : List Stmt} {s : State} {q : Sequencer}
    (h : s.seq = some q) (hq : q.step = .before todo) : runCommand g b text s = advance todo q s := by
  simp [runCommand, h, hq]

/-- A step of a command is a next state, or the fault of finding `CTRL` at a value never held. -/
theorem runCommand_cases (g : Gate) (b : Option Ctrl) (text : List Stmt) (s : State) :
    (∃ t, runCommand g b text s = .next t) ∨
    (gateCheck g s.ctrl = .ctrlNeverHeld ∧ runCommand g b text s = .fault .ctrlNeverHeld) := by
  unfold runCommand
  split
  next todo _ => exact .inl (advance_next _ _ _)
  next =>
    split
    next => exact .inl (advance_next _ _ _)
    next => exact .inl ⟨_, rfl⟩
    next h => exact .inr ⟨h, rfl⟩

/-- A micro-op never stops the machine. -/
theorem runMicroOp_next (op : CwOp) (s : State) : ∃ t, runMicroOp op s = .next t := advance_next _ _ _

/-! ## The state after an action, by field -/

/-- The end of a command leaves what the command does not own. -/
theorem raise_frame (e : Raise) (q : Sequencer) (s : State) :
    (raise e q s).params = s.params ∧ (raise e q s).dev = s.dev ∧ (raise e q s).trace = s.trace ∧
    (raise e q s).bus = s.bus ∧ (raise e q s).timer = s.timer ∧ (raise e q s).opc = s.opc ∧
    (raise e q s).arg = s.arg ∧ (raise e q s).host = s.host ∧ (raise e q s).hostSeen = s.hostSeen := by
  simp

end Sys2Proof.Machine
end

