-- ==== Sys2Proof/Laws/Runs.lean ====
section
/-! SUPPORT. Running a text: `Runs n todo q s t` says that a core before the text `todo` with temporaries `q` makes its
next action and, after `n` more, is in `t`. One rule per action and per outcome of a pure computation, stated on the
states `mid` a run passes through, and one rule per called rule's relation (`CwRun`, `DisableRun`, `EnableRun`). -/

namespace Sys2Proof.Machine

/-! ## Chains of steps -/

/-- `n` steps of a command under way. -/
inductive Chain : Nat → State → State → Prop
  | refl (s : State) : Chain 0 s s
  | step {n : Nat} {s u t : State} {q : Sequencer} {todo : List Stmt} : s.seq = some q → q.step = .before todo →
      advance todo q s = .next u → Chain n u t → Chain (n + 1) s t

/-- A command's meaning is a gate, a binding and a text. -/
theorem exec_command {i : Instr} {f : Frame} (hc : encode i = .command f) (s : State) :
    ∃ g b text, exec i s = runCommand g b text s := by
  cases i <;> first | cases hc; done | skip
  all_goals simp only [exec, execCurrentState, execEnableOperation, execDisableOperation, execShutdown, execQuickStop,
    execSetModeOfOperation, execGetModeOfOperation, execSetMotorParameters, execGetMotorParameters,
    execSaveGroup, execSetUserUnitsFeed, execGetPositionActual, execGetSpeedActual, execGetVelocityActual,
    execGetVelocityDemanded, execHalt, execBindHoming, execBindProfilePosition, execBindVelocity,
    execBindAutoSetup, execUnbind, execSetHomingSpeed, execSetHomingMode, execSetHomingAcceleration,
    execStartHoming, execHome, execGetHomingState, execSetTargetPosition, execSetProfileVelocity,
    execSetProfileAcceleration, execStartPositioning, execSetUserUnitsPositioning, execGetUserUnitsPositioning,
    execSetTargetVelocity, execSetVelocityAcceleration, execGetVelocityAcceleration,
    execSetVelocityDeceleration, execGetVelocityDeceleration, execStartVelocity, execSetUserUnitsVelocity,
    execGetUserUnitsVelocity, execAutoSetupMotorParameters, runBind]
  all_goals exact ⟨_, _, _, rfl⟩

/-- A command under way makes the next action of its text, whichever command it is. -/
theorem exec_before {i : Instr} {f : Frame} {s : State} {q : Sequencer} {todo : List Stmt}
    (hc : encode i = .command f) (hq : s.seq = some q) (ht : q.step = .before todo) : exec i s = advance todo q s := by
  obtain ⟨g, b, text, h⟩ := exec_command hc s
  rw [h, runCommand_before hq ht]

theorem Chain.runExec {i : Instr} {f : Frame} (hc : encode i = .command f) {n : Nat} {s t : State}
    (h : Chain n s t) : runExec i n s = .next t := by
  induction h with
  | refl => rfl
  | step hq ht ha _ ih => simp only [Machine.runExec, exec_before hc hq ht, ha, ih]

/-- The state after a part of a run: the answers `b` and timer reports `tl` left, the events `es` added. -/
def mid (s : State) (b : List Answer) (tl : Nat) (es : List Event) (sq : Option Sequencer) : State :=
  { s with bus := b, timer := tl, trace := s.trace ++ es, seq := sq }

theorem mid_self (s : State) : mid s s.bus s.timer [] s.seq = s := by simp [mid]

/-- The core's next action before `todo`, and `n` more, lead to `t`. -/
def Runs (n : Nat) (todo : List Stmt) (q : Sequencer) (s t : State) : Prop :=
  ∃ u, advance todo q s = .next u ∧ Chain n u t

/-- A command just issued that the gate lets pass runs its text. -/
theorem Runs.exec {i : Instr} {f : Frame} {g : Gate} {bind : Option Ctrl} {text : List Stmt} {n : Nat} {s t : State}
    (hc : encode i = .command f) (he : exec i s = runCommand g bind text s) (hi : Issued s)
    (hg : gateCheck g s.ctrl = .allowed) (h : Runs n text { Sequencer.fresh with bind := bind } s t) :
    ∃ u, Machine.exec i s = .next u ∧ runExec i n u = .next t := by
  obtain ⟨u, hu, hch⟩ := h
  exact ⟨u, by rw [he, runCommand_issued hi.2 hg, hu], hch.runExec hc⟩

/-- A run may be stated from the `mid` of its own start. -/
theorem Runs.start {n : Nat} {todo : List Stmt} {q : Sequencer} {s t : State} {b : List Answer} (hb : s.bus = b)
    (h : Runs n todo q (mid s b s.timer [] s.seq) t) : Runs n todo q s t := by
  subst hb; rwa [mid_self] at h

/-- A run's end may be written in any equal way. -/
theorem Runs.to {n : Nat} {todo : List Stmt} {q : Sequencer} {s t t' : State} (h : Runs n todo q s t') (e : t' = t) :
    Runs n todo q s t := e ▸ h

/-! ## One rule per action -/

theorem Runs.done (q : Sequencer) (s : State) : Runs 0 [] q s (returnOk q s) := ⟨_, rfl, .refl _⟩

theorem Runs.read {n : Nat} {r : RegName} {rest : List Stmt} {q : Sequencer} {s t : State} {x : DWord}
    {b : List Answer} {tl : Nat} {es : List Event} {sq : Option Sequencer}
    (h : Runs n rest { q with v := readValue s r x, step := .before rest }
      (mid s b tl (es ++ [readEvent s r x]) (some { q with v := readValue s r x, step := .before rest })) t) :
    Runs (n + 1) (.act (.read r) :: rest) q (mid s (.ok x :: b) tl es sq) t := by
  obtain ⟨u, hu, hch⟩ := h
  refine ⟨_, rfl, .step rfl rfl ?_ hch⟩
  simpa [afterRead, mid, readEvent, readValue] using hu

theorem Runs.cwRead {n : Nat} {op : CwOp} {rest : List Stmt} {q : Sequencer} {s t : State} {x : DWord}
    {b : List Answer} {tl : Nat} {es : List Event} {sq : Option Sequencer}
    (h : Runs n rest { q with v := readValue s .cw x, step := .before rest }
      (mid s b tl (es ++ [readEvent s .cw x]) (some { q with v := readValue s .cw x, step := .before rest })) t) :
    Runs (n + 1) (.act (.cwRead op) :: rest) q (mid s (.ok x :: b) tl es sq) t := by
  obtain ⟨u, hu, hch⟩ := h
  refine ⟨_, rfl, .step rfl rfl ?_ hch⟩
  simpa [afterRead, mid, readEvent, readValue] using hu

theorem Runs.write {n : Nat} {r : RegName} {x : Word} {rest : List Stmt} {q : Sequencer} {s t : State} {y : DWord}
    {b : List Answer} {tl : Nat} {es : List Event} {sq : Option Sequencer}
    (h : Runs n rest { q with step := .before rest }
      (mid s b tl (es ++ [writeEvent s r x]) (some { q with step := .before rest })) t) :
    Runs (n + 1) (.act (.write r x) :: rest) q (mid s (.ok y :: b) tl es sq) t := by
  obtain ⟨u, hu, hch⟩ := h
  refine ⟨_, rfl, .step rfl rfl ?_ hch⟩
  simpa [afterWrite, mid, writeEvent] using hu

theorem Runs.writeWorking {n : Nat} {r : RegName} {rest : List Stmt} {q : Sequencer} {s t : State} {y : DWord}
    {b : List Answer} {tl : Nat} {es : List Event} {sq : Option Sequencer}
    (h : Runs n rest { q with step := .before rest }
      (mid s b tl (es ++ [writeEvent s r q.v]) (some { q with step := .before rest })) t) :
    Runs (n + 1) (.act (.writeWorking r) :: rest) q (mid s (.ok y :: b) tl es sq) t := by
  obtain ⟨u, hu, hch⟩ := h
  refine ⟨_, rfl, .step rfl rfl ?_ hch⟩
  simpa [afterWrite, mid, writeEvent] using hu

theorem Runs.cwWrite {n : Nat} {op : CwOp} {rest : List Stmt} {q : Sequencer} {s t : State} {y : DWord}
    {b : List Answer} {tl : Nat} {es : List Event} {sq : Option Sequencer}
    (h : Runs n rest { q with step := .before rest }
      (mid s b tl (es ++ [writeEvent s .cw ((cwWord op (word16 q.v)).setWidth 32)]) (some { q with step := .before rest }))
      t) :
    Runs (n + 1) (.act (.cwWrite op) :: rest) q (mid s (.ok y :: b) tl es sq) t := by
  obtain ⟨u, hu, hch⟩ := h
  refine ⟨_, rfl, .step rfl rfl ?_ hch⟩
  simpa [afterWrite, mid, writeEvent] using hu

theorem Runs.wait {n ms : Nat} {rest : List Stmt} {q : Sequencer} {s t : State}
    {b : List Answer} {tl : Nat} {es : List Event} {sq : Option Sequencer}
    (h : Runs n rest { q with step := .before rest }
      (mid s b tl (es ++ [.wait ms]) (some { q with step := .before rest })) t) :
    Runs (n + 1) (.act (.wait ms) :: rest) q (mid s b (tl + 1) es sq) t := by
  obtain ⟨u, hu, hch⟩ := h
  refine ⟨_, rfl, .step rfl rfl ?_ hch⟩
  simpa [afterWait, mid] using hu

/-- A failed read ends the run. -/
theorem Runs.readFails {r : RegName} {rest : List Stmt} {q : Sequencer} {s : State} {e : Word}
    {b : List Answer} {tl : Nat} {es : List Event} {sq : Option Sequencer} :
    Runs 0 (.act (.read r) :: rest) q (mid s (.error e :: b) tl es sq)
      (failed s b tl (es ++ [readFailedEvent s r]) 0x01 (s.res.set 0 e) (if q.bind.isSome then .unbound else s.ctrl)) :=
  ⟨_, by simp [perform, memRead, mid, Machine.raise, afterReadFailed, failed, readFailedEvent, raiseCode, raiseResults,
    statusIoError], .refl _⟩

/-- A failed write ends the run. -/
theorem Runs.writeFails {r : RegName} {x : Word} {rest : List Stmt} {q : Sequencer} {s : State} {e : Word}
    {b : List Answer} {tl : Nat} {es : List Event} {sq : Option Sequencer} :
    Runs 0 (.act (.write r x) :: rest) q (mid s (.error e :: b) tl es sq)
      (failed s b tl (es ++ [writeFailedEvent s r x]) 0x01 (s.res.set 0 e)
        (if q.bind.isSome then .unbound else s.ctrl)) :=
  ⟨_, by simp [perform, memWrite, mid, Machine.raise, afterWriteFailed, failed, writeFailedEvent, raiseCode,
    raiseResults, statusIoError], .refl _⟩

/-! ## Pure computations -/

theorem Runs.pass {n : Nat} {k : Test} {rest : List Stmt} {q q' : Sequencer} {s t : State}
    (hv : verdict s.params q k = .pass q') (h : Runs n rest q' s t) : Runs n (.test k :: rest) q s t := by
  obtain ⟨u, hu, hch⟩ := h
  exact ⟨u, (advance_test_pass hv).trans hu, hch⟩

theorem Runs.goOn {n : Nat} {k : Test} {a : Act} {more rest : List Stmt} {q q' : Sequencer} {s t : State}
    (hv : verdict s.params q k = .act a more q') (h : Runs n (.act a :: (more ++ rest)) q' s t) :
    Runs n (.test k :: rest) q s t := by
  obtain ⟨u, hu, hch⟩ := h
  exact ⟨u, (advance_test_act hv).trans hu, hch⟩

/-- A protocol error ends the run with `RES` as it was. -/
theorem Runs.raises {k : Test} {e : ProtocolError} {rest : List Stmt} {q : Sequencer} {s : State}
    {b : List Answer} {tl : Nat} {es : List Event} {sq : Option Sequencer}
    (hv : verdict s.params q k = .raise e) :
    Runs 0 (.test k :: rest) q (mid s b tl es sq)
      (failed s b tl es (protocolCode e) s.res (if q.bind.isSome then .unbound else s.ctrl)) :=
  ⟨_, advance_test_raise hv, .refl _⟩

/-- A text at its end ends the run with success. -/
theorem Runs.ends {q : Sequencer} {s : State} {b : List Answer} {tl : Nat} {es : List Event} {sq : Option Sequencer} :
    Runs 0 [] q (mid s b tl es sq) (succeeded s b tl es (commit q.staged s.res) (q.bind.getD s.ctrl)) :=
  ⟨_, rfl, .refl _⟩

/-! ## Called rules -/

/-- What the called rules leave of the temporaries: the poll counter, the staged results and the binding. -/
def Keeps (q q' : Sequencer) : Prop := q'.n = q.n ∧ q'.staged = q.staged ∧ q'.bind = q.bind

/-- The text of a list of micro-ops. -/
def cwTexts : List CwOp → List Stmt
  | [] => []
  | op :: ops => .act (.cwRead op) :: .act (.cwWrite op) :: cwTexts ops

/-- The read-modify-writes of a list of micro-ops. -/
theorem CwRun.runs {s : State} {ops : List CwOp} {b more : List Answer} {es : List Event} (h : CwRun s ops b es)
    {n : Nat} {rest : List Stmt} {q : Sequencer} {t : State} {tl : Nat} {es₀ : List Event} {sq : Option Sequencer}
    (hk : ∀ q' sq', q'.prev = q.prev → q'.faults = q.faults → Keeps q q' →
      Runs n rest q' (mid s more tl (es₀ ++ es) sq') t) :
    Runs (b.length + n) (cwTexts ops ++ rest) q (mid s (b ++ more) tl es₀ sq) t := by
  induction h generalizing q es₀ sq with
  | nil => simpa [cwTexts] using hk q sq rfl rfl ⟨rfl, rfl, rfl⟩
  | cons op ops x y b es _ _ ih =>
    rw [show (List.length (Answer.ok x :: Answer.ok y :: b) + n) = b.length + n + 1 + 1 by simp; omega]
    refine Runs.cwRead (Runs.cwWrite (ih fun q' sq' hp hf hq => ?_))
    have := hk q' sq' hp hf hq
    simpa [cwEvents, cwWritten] using this

theorem disableStateVerdict_of {p : Params} {q : Sequencer} {st : PowerState} {ops : List CwOp}
    (hs : readState p q = some st) (ho : disableOps st = some ops) :
    (ops = [] ∧ verdict p q .disableState = .pass q) ∨
    ∃ op more, ops = op :: more ∧
      verdict p q .disableState = .act (.cwRead op) (.act (.cwWrite op) :: cwTexts more) q := by
  cases st <;> simp only [disableOps, Option.some.injEq, reduceCtorEq] at ho <;> subst ho <;>
    simp [verdict, disableStateVerdict, hs, Verdict.cw, cwTexts, cwText]

/-- The disable step, up to its re-read. -/
theorem DisableRun.runs_ok {s : State} {b more : List Answer} {es : List Event} (h : DisableRun s b es none)
    {n : Nat} {rest : List Stmt} {q : Sequencer} {t : State} {tl : Nat} {es₀ : List Event} {sq : Option Sequencer}
    (hk : ∀ q' sq', Keeps q q' → Runs n rest q' (mid s more tl (es₀ ++ es) sq') t) :
    Runs (b.length + n) (disableText ++ rest) q (mid s (b ++ more) tl es₀ sq) t := by
  generalize hr : (none : Option ProtocolError) = r at h
  cases h with
  | unknown => cases hr
  | notReady => cases hr
  | reread x z p ops b es hp ho hcw =>
    rw [show (List.length (Answer.ok x :: (b ++ [Answer.ok z])) + n) = (b.length + (n + 1)) + 1 by simp; omega]
    have hfinal : ∀ (q₁ : Sequencer) (sq₁ : Option Sequencer), Keeps q q₁ →
        Runs (n + 1) (.act (.read .sw) :: .test .disableRecheck :: rest) q₁
          (mid s (.ok z :: more) tl (es₀ ++ [readEvent s .sw x] ++ es) sq₁) t := by
      intro q₁ sq₁ hq₁
      refine Runs.read (Runs.pass (q' := { q₁ with v := readValue s .sw z, step := .before (.test .disableRecheck :: rest) }) ?_ ?_)
      · have : readState s.params { q₁ with v := readValue s .sw z, step := .before (.test .disableRecheck :: rest) } = stateShown s z := rfl
        simp only [mid, verdict, disableRecheckVerdict, this]
        revert hr
        cases stateShown s z with
        | none => simp [rereadEnd]
        | some p => cases p <;> simp [rereadEnd]
      · have := hk { q₁ with v := readValue s .sw z, step := .before (.test .disableRecheck :: rest) }
          (some { q₁ with v := readValue s .sw z, step := .before (.test .disableRecheck :: rest) }) hq₁
        simpa using this
    rw [List.cons_append]
    refine Runs.read ?_
    rcases disableStateVerdict_of (q := { q with v := readValue s .sw x, step := .before (.test .disableState :: .act (.read .sw) :: .test .disableRecheck :: rest) }) (p := s.params) hp ho with ⟨rfl, hv⟩ | ⟨op, mo, rfl, hv⟩
    · cases hcw
      refine Runs.pass hv ?_
      rw [← List.append_nil (es₀ ++ [readEvent s .sw x])]
      simp only [List.length_nil, Nat.zero_add, List.nil_append, List.append_eq, List.cons_append]
      exact hfinal _ _ ⟨rfl, rfl, rfl⟩
    · refine Runs.goOn hv ?_
      have := CwRun.runs hcw (more := .ok z :: more) (n := n + 1) (rest := .act (.read .sw) :: .test .disableRecheck :: rest)
        (q := { q with v := readValue s .sw x, step := .before (.test .disableState :: .act (.read .sw) :: .test .disableRecheck :: rest) })
        (t := t) (tl := tl) (es₀ := es₀ ++ [readEvent s .sw x])
        (sq := some { q with v := readValue s .sw x, step := .before (.test .disableState :: .act (.read .sw) :: .test .disableRecheck :: rest) })
        (fun q' sq' _ _ hq => hfinal q' sq' hq)
      simpa [cwTexts] using this

end Sys2Proof.Machine
end

