-- ==== Sys2Proof/Laws/Exec.lean ====
section
/-! SUPPORT. What one step of any instruction can be: the end of its command with success, a protocol error, or one
action; and what it leaves as it was. -/

namespace Sys2Proof.Machine

/-- An action leaves the constants, the latched frame and the host's moves. -/
theorem perform_frame {a : Act} {rest : List Stmt} {q : Sequencer} {s t : State} (h : perform a rest q s = .next t) :
    t.params = s.params ∧ t.dev = s.dev ∧ t.opc = s.opc ∧ t.arg = s.arg ∧ t.host = s.host ∧ t.hostSeen = s.hostSeen := by
  cases a <;> simp only [perform] at h
  case wait => rcases waitMs_cases h with ⟨_, rfl⟩ | ⟨_, _, rfl⟩ <;> simp
  case read | cwRead => rcases memRead_cases h with ⟨_, rfl⟩ | ⟨_, _, _, rfl⟩ | ⟨_, _, _, rfl⟩ <;> simp
  all_goals rcases memWrite_cases h with ⟨_, rfl⟩ | ⟨_, _, _, rfl⟩ | ⟨_, _, _, rfl⟩ <;> simp

/-- A pure computation keeps the binding that the sequencer carries. -/
theorem verdict_bind (p : Params) (q : Sequencer) (k : Test) :
    (∀ q', verdict p q k = .pass q' → q'.bind = q.bind) ∧
    ∀ a more q', verdict p q k = .act a more q' → q'.bind = q.bind := by
  cases k <;> simp only [verdict, currentStateResultVerdict, enableStateVerdict, enableCountFaultVerdict,
    disableStateVerdict, disableRecheckVerdict, shutdownStateVerdict, quickStopStateVerdict, quickStopRecheckVerdict,
    modeDiffersVerdict, modeResultVerdict, stageVerdict, driveModeEditVerdict, driveModeResultVerdict, pollNextVerdict,
    pollCheckVerdict, haltModeVerdict, homingSpeedOrderVerdict, homingAbortVerdict, homingResultVerdict,
    packPosVerdict, posUnitsResultVerdict, packVelVerdict, velUnitsResultVerdict, preconditionVerdict, Verdict.cw,
    Sequencer.stageResult] <;>
  (constructor <;> intros <;> rename_i h <;> revert h <;> repeat' split) <;>
  simp only [Verdict.pass.injEq, Verdict.act.injEq, reduceCtorEq, false_implies, and_imp]
  all_goals first
    | (rintro rfl; rfl)
    | (rintro _ _ rfl; rfl)

/-- A step before a text is an end with success, a protocol error, or an action, each with the binding that the
sequencer carried. -/
theorem advance_elim_bind {P : State → Prop} {s t : State} :
    ∀ (todo : List Stmt) (q : Sequencer), advance todo q s = .next t →
      (∀ q', q'.bind = q.bind → t = returnOk q' s → P t) →
      (∀ e q', q'.bind = q.bind → t = raise (.protocol e) q' s → P t) →
      (∀ a rest q', q'.bind = q.bind → perform a rest q' s = .next t → P t) → P t
  | [], q, h, h1, _, _ => h1 q rfl (Host.Outcome.next.inj h).symm
  | .act a :: rest, q, h, _, _, h3 => h3 a rest q rfl h
  | .test k :: rest, q, h, h1, h2, h3 => by
    cases hv : verdict s.params q k with
    | raise e => rw [advance_test_raise hv] at h; exact h2 e q rfl (Host.Outcome.next.inj h).symm
    | pass q' =>
      rw [advance_test_pass hv] at h
      have hb := (verdict_bind _ _ _).1 _ hv
      exact advance_elim_bind rest q' h (fun q'' e => h1 q'' (e.trans hb)) (fun e q'' e' => h2 e q'' (e'.trans hb))
        (fun a r q'' e => h3 a r q'' (e.trans hb))
    | act a more q' => rw [advance_test_act hv] at h; exact h3 a _ q' ((verdict_bind _ _ _).2 _ _ _ hv) h

/-- A step before a text is an end with success, a protocol error, or an action. -/
theorem advance_elim {P : State → Prop} {s t : State} (todo : List Stmt) (q : Sequencer)
    (h : advance todo q s = .next t) (h1 : ∀ q, t = returnOk q s → P t)
    (h2 : ∀ e q, t = raise (.protocol e) q s → P t) (h3 : ∀ a rest q, perform a rest q s = .next t → P t) : P t :=
  advance_elim_bind todo q h (fun q' _ => h1 q') (fun e q' _ => h2 e q') (fun a rest q' _ => h3 a rest q')

/-- Whatever the instruction, a command under way goes on with its own temporaries. -/
theorem exec_running (i : Instr) {s : State} {q : Sequencer} {todo : List Stmt} (hq : s.seq = some q)
    (ht : q.step = .before todo) : ∃ todo', exec i s = advance todo' q s := by
  cases hc : encode i with
  | command f => exact ⟨todo, exec_before hc hq ht⟩
  | microOp a b =>
    cases i <;> first | cases hc; done | skip
    all_goals exact ⟨_, by simp only [exec, execCwShutdown, execCwSwitchOn, execCwEnableOperation, execCwDisableOperation,
      execCwDisableVoltage, execCwQuickStop, execCwQsRecover1, execCwFaultResetLow, execCwFaultResetHigh, execCwStartSet,
      execCwStartClear, execCwHaltSet, execCwHaltClear, execCwPpTargetAbs, execCwPpTargetRel, execCwPpStart,
      execCwClearAll, runMicroOp, hq, Option.getD_some]; rfl⟩

/-- Whatever the instruction, its step runs a text, ends with an error, or stops at a `CTRL` never held. -/
theorem exec_forms (i : Instr) (s : State) :
    (∃ todo q, exec i s = advance todo q s) ∨ (∃ e q, exec i s = .next (raise (.protocol e) q s)) ∨
    ∃ f, exec i s = .fault f := by
  cases hc : encode i with
  | command f =>
    obtain ⟨g, b, text, hr⟩ := exec_command hc s
    rw [hr]; unfold runCommand
    split
    next => exact .inl ⟨_, _, rfl⟩
    next =>
      split
      next => exact .inl ⟨_, _, rfl⟩
      next => exact .inr (.inl ⟨_, _, rfl⟩)
      next => exact .inr (.inr ⟨_, rfl⟩)
  | microOp a b =>
    left
    cases i <;> first | cases hc; done | skip
    all_goals exact ⟨_, _, rfl⟩

/-- Whatever the instruction, a step that goes on is an end with success, a protocol error, or an action. -/
theorem exec_elim {P : State → Prop} {i : Instr} {s t : State} (h : exec i s = .next t)
    (h1 : ∀ q, t = returnOk q s → P t) (h2 : ∀ e q, t = raise (.protocol e) q s → P t)
    (h3 : ∀ a rest q, perform a rest q s = .next t → P t) : P t := by
  rcases exec_forms i s with ⟨todo, q, ha⟩ | ⟨e, q, ha⟩ | ⟨f, ha⟩
  · rw [ha] at h; exact advance_elim todo q h h1 h2 h3
  · rw [ha] at h; exact h2 e q (Host.Outcome.next.inj h).symm
  · rw [ha] at h; cases h

end Sys2Proof.Machine
end

