-- ==== Sys2Proof/Laws/PerInstr.lean ====
section
/-! SUPPORT. Statements for all instructions, one lemma per constructor. `DecodeEncode`: decoding the code of a
well-formed instruction gives the instruction back (`Instr.decoded`). -/

namespace Sys2Proof.Laws

/-- A byte operand survives its register. -/
@[simp] theorem argByte_setWidth (b : Byte) : argByte (b.setWidth 32) = b := by
  simp [argByte]

/-- A flag survives its register. -/
@[simp] theorem argFlag_ofBool (b : Bool) : argFlag ((BitVec.ofBool b).setWidth 32) = b := by
  cases b <;> decide

/-- A signed 8-bit operand survives its register when it fits. -/
theorem argSigned8_ofInt {v : Int} (h : FitsSigned 8 v) : argSigned8 ((BitVec.ofInt 8 v).setWidth 32) = v := by
  obtain ⟨h1, h2⟩ := h
  simp only [argSigned8, BitVec.setWidth_setWidth_of_le _ (by decide : 8 ≤ 32), BitVec.setWidth_eq, BitVec.toInt_ofInt]
  norm_num at h1 h2
  exact Int.bmod_eq_of_le (by omega) (by omega)

/-- A signed 32-bit operand survives its register when it fits. -/
theorem argSigned32_ofInt {v : Int} (h : FitsSigned 32 v) : argSigned32 (BitVec.ofInt 32 v) = v := by
  obtain ⟨h1, h2⟩ := h
  simp only [argSigned32, BitVec.toInt_ofInt]
  norm_num at h1 h2
  exact Int.bmod_eq_of_le (by omega) (by omega)

def DecodeEncode.Statement (i : Instr) : Prop := i.WellFormed → decode (encode i) = .ok i.decoded

theorem DecodeEncode.currentState : DecodeEncode.Statement (.currentState) := fun _ => rfl

theorem DecodeEncode.enableOperation : DecodeEncode.Statement (.enableOperation) := fun _ => rfl

theorem DecodeEncode.disableOperation : DecodeEncode.Statement (.disableOperation) := fun _ => rfl

theorem DecodeEncode.shutdown : DecodeEncode.Statement (.shutdown) := fun _ => rfl

theorem DecodeEncode.quickStop : DecodeEncode.Statement (.quickStop) := fun _ => rfl

theorem DecodeEncode.setModeOfOperation (mode : Int) :
    DecodeEncode.Statement (.setModeOfOperation mode) := fun h =>
  congrArg (fun m => Except.ok (Instr.setModeOfOperation m)) (argSigned8_ofInt (of_decide_eq_true h))

theorem DecodeEncode.getModeOfOperation : DecodeEncode.Statement (.getModeOfOperation) := fun _ => rfl

theorem DecodeEncode.setMotorParameters (polePairCount ratedCurrent maxCurrent maxCurrentDuration idleCurrent : Word) (driveMode : Byte) :
    DecodeEncode.Statement (.setMotorParameters polePairCount ratedCurrent maxCurrent maxCurrentDuration idleCurrent driveMode) := fun _ => by
  simp [encode, frame, decode, decodeFrame, Instr.decoded]

theorem DecodeEncode.getMotorParameters : DecodeEncode.Statement (.getMotorParameters) := fun _ => rfl

theorem DecodeEncode.saveGroup (groupId : Byte) :
    DecodeEncode.Statement (.saveGroup groupId) := fun _ => by
  simp [encode, frame, decode, decodeFrame, Instr.decoded]

theorem DecodeEncode.setUserUnitsFeed (feedNumerator shaftRevolutions : Word) :
    DecodeEncode.Statement (.setUserUnitsFeed feedNumerator shaftRevolutions) := fun _ => by
  simp [encode, frame, decode, decodeFrame, Instr.decoded]

theorem DecodeEncode.getPositionActual : DecodeEncode.Statement (.getPositionActual) := fun _ => rfl

theorem DecodeEncode.getSpeedActual : DecodeEncode.Statement (.getSpeedActual) := fun _ => rfl

theorem DecodeEncode.getVelocityActual : DecodeEncode.Statement (.getVelocityActual) := fun _ => rfl

theorem DecodeEncode.getVelocityDemanded : DecodeEncode.Statement (.getVelocityDemanded) := fun _ => rfl

theorem DecodeEncode.halt : DecodeEncode.Statement (.halt) := fun _ => rfl

theorem DecodeEncode.bindHoming : DecodeEncode.Statement (.bindHoming) := fun _ => rfl

theorem DecodeEncode.bindProfilePosition : DecodeEncode.Statement (.bindProfilePosition) := fun _ => rfl

theorem DecodeEncode.bindVelocity : DecodeEncode.Statement (.bindVelocity) := fun _ => rfl

theorem DecodeEncode.bindAutoSetup : DecodeEncode.Statement (.bindAutoSetup) := fun _ => rfl

theorem DecodeEncode.unbind : DecodeEncode.Statement (.unbind) := fun _ => rfl

theorem DecodeEncode.setHomingSpeed (speedToZero speedToSwitch : Word) :
    DecodeEncode.Statement (.setHomingSpeed speedToZero speedToSwitch) := fun _ => by
  simp [encode, frame, decode, decodeFrame, Instr.decoded]

theorem DecodeEncode.setHomingMode (method : Int) :
    DecodeEncode.Statement (.setHomingMode method) := fun h =>
  congrArg (fun m => Except.ok (Instr.setHomingMode m)) (argSigned32_ofInt (of_decide_eq_true h))

theorem DecodeEncode.setHomingAcceleration (acc : Word) :
    DecodeEncode.Statement (.setHomingAcceleration acc) := fun _ => by
  simp [encode, frame, decode, decodeFrame, Instr.decoded]

theorem DecodeEncode.startHoming : DecodeEncode.Statement (.startHoming) := fun _ => rfl

theorem DecodeEncode.home (speedToZero speedToSwitch : Word) :
    DecodeEncode.Statement (.home speedToZero speedToSwitch) := fun _ => by
  simp [encode, frame, decode, decodeFrame, Instr.decoded]

theorem DecodeEncode.getHomingState : DecodeEncode.Statement (.getHomingState) := fun _ => rfl

theorem DecodeEncode.setTargetPosition (value : Int) (rel : Bool) :
    DecodeEncode.Statement (.setTargetPosition value rel) := fun h => by
  have hv := argSigned32_ofInt (of_decide_eq_true h)
  simp [encode, frame, decode, decodeFrame, Instr.decoded, hv]

theorem DecodeEncode.setProfileVelocity (speed : Word) :
    DecodeEncode.Statement (.setProfileVelocity speed) := fun _ => by
  simp [encode, frame, decode, decodeFrame, Instr.decoded]

theorem DecodeEncode.setProfileAcceleration (acc : Word) :
    DecodeEncode.Statement (.setProfileAcceleration acc) := fun _ => by
  simp [encode, frame, decode, decodeFrame, Instr.decoded]

theorem DecodeEncode.startPositioning : DecodeEncode.Statement (.startPositioning) := fun _ => rfl

theorem DecodeEncode.setUserUnitsPositioning (unit exponent : Byte) :
    DecodeEncode.Statement (.setUserUnitsPositioning unit exponent) := fun _ => by
  simp [encode, frame, decode, decodeFrame, Instr.decoded]

theorem DecodeEncode.getUserUnitsPositioning : DecodeEncode.Statement (.getUserUnitsPositioning) := fun _ => rfl

theorem DecodeEncode.setTargetVelocity (vel : Int) :
    DecodeEncode.Statement (.setTargetVelocity vel) := fun h =>
  congrArg (fun m => Except.ok (Instr.setTargetVelocity m)) (argSigned32_ofInt (of_decide_eq_true h))

theorem DecodeEncode.setVelocityAcceleration (deltaSpeed deltaTime : Word) :
    DecodeEncode.Statement (.setVelocityAcceleration deltaSpeed deltaTime) := fun _ => by
  simp [encode, frame, decode, decodeFrame, Instr.decoded]

theorem DecodeEncode.getVelocityAcceleration : DecodeEncode.Statement (.getVelocityAcceleration) := fun _ => rfl

theorem DecodeEncode.setVelocityDeceleration (deltaSpeed deltaTime : Word) :
    DecodeEncode.Statement (.setVelocityDeceleration deltaSpeed deltaTime) := fun _ => by
  simp [encode, frame, decode, decodeFrame, Instr.decoded]

theorem DecodeEncode.getVelocityDeceleration : DecodeEncode.Statement (.getVelocityDeceleration) := fun _ => rfl

theorem DecodeEncode.startVelocity : DecodeEncode.Statement (.startVelocity) := fun _ => rfl

theorem DecodeEncode.setUserUnitsVelocity (unit exponent timebase : Byte) :
    DecodeEncode.Statement (.setUserUnitsVelocity unit exponent timebase) := fun _ => by
  simp [encode, frame, decode, decodeFrame, Instr.decoded]

theorem DecodeEncode.getUserUnitsVelocity : DecodeEncode.Statement (.getUserUnitsVelocity) := fun _ => rfl

theorem DecodeEncode.autoSetupMotorParameters : DecodeEncode.Statement (.autoSetupMotorParameters) := fun _ => rfl

theorem DecodeEncode.cwShutdown : DecodeEncode.Statement (.cwShutdown) := fun _ => rfl

theorem DecodeEncode.cwSwitchOn : DecodeEncode.Statement (.cwSwitchOn) := fun _ => rfl

theorem DecodeEncode.cwEnableOperation : DecodeEncode.Statement (.cwEnableOperation) := fun _ => rfl

theorem DecodeEncode.cwDisableOperation : DecodeEncode.Statement (.cwDisableOperation) := fun _ => rfl

theorem DecodeEncode.cwDisableVoltage : DecodeEncode.Statement (.cwDisableVoltage) := fun _ => rfl

theorem DecodeEncode.cwQuickStop : DecodeEncode.Statement (.cwQuickStop) := fun _ => rfl

theorem DecodeEncode.cwQsRecover1 : DecodeEncode.Statement (.cwQsRecover1) := fun _ => rfl

theorem DecodeEncode.cwFaultResetLow : DecodeEncode.Statement (.cwFaultResetLow) := fun _ => rfl

theorem DecodeEncode.cwFaultResetHigh : DecodeEncode.Statement (.cwFaultResetHigh) := fun _ => rfl

theorem DecodeEncode.cwStartSet : DecodeEncode.Statement (.cwStartSet) := fun _ => rfl

theorem DecodeEncode.cwStartClear : DecodeEncode.Statement (.cwStartClear) := fun _ => rfl

theorem DecodeEncode.cwHaltSet : DecodeEncode.Statement (.cwHaltSet) := fun _ => rfl

theorem DecodeEncode.cwHaltClear : DecodeEncode.Statement (.cwHaltClear) := fun _ => rfl

theorem DecodeEncode.cwPpTargetAbs : DecodeEncode.Statement (.cwPpTargetAbs) := fun _ => rfl

theorem DecodeEncode.cwPpTargetRel : DecodeEncode.Statement (.cwPpTargetRel) := fun _ => rfl

theorem DecodeEncode.cwPpStart : DecodeEncode.Statement (.cwPpStart) := fun _ => rfl

theorem DecodeEncode.cwClearAll : DecodeEncode.Statement (.cwClearAll) := fun _ => rfl

end Sys2Proof.Laws
end

