-- ==== Sys2Proof/Machine/Assembler.lean ====
section
/-! DEFINITION. The assembler syntax of spec/30_encoding.md R122: "one command per line, written
`MNEMONIC op0, op1, ...`, with operands in the order of rule R104", and the three pseudo-instructions. What the rule
does not say of the reading of a line is log entry 17 (DESIGN CHOICE). The micro-ops have no line: the host cannot issue them. -/

namespace Sys2Proof.Machine

/-! ## Characters -/

def isBlank (c : Char) : Bool := c == ' ' || c == '\t'

/-- A line without its comment: "`;` starts a comment". -/
def dropComment (l : List Char) : List Char := l.takeWhile (· != ';')

/-- Without blanks at both ends. -/
def trimBlanks (l : List Char) : List Char := ((l.dropWhile isBlank).reverse.dropWhile isBlank).reverse

/-- The pieces between commas. -/
def splitCommas : List Char → List (List Char)
  | [] => [[]]
  | c :: cs =>
    if c == ',' then [] :: splitCommas cs
    else
      match splitCommas cs with
      | [] => [[c]]
      | p :: ps => (c :: p) :: ps

/-- The value of a digit in base 16. -/
def digitOf (c : Char) : Option Nat :=
  if '0' ≤ c ∧ c ≤ '9' then some (c.toNat - '0'.toNat)
  else if 'a' ≤ c ∧ c ≤ 'f' then some (c.toNat - 'a'.toNat + 10)
  else if 'A' ≤ c ∧ c ≤ 'F' then some (c.toNat - 'A'.toNat + 10)
  else none

/-- A number in a base, after the digits already read. -/
def digits (base : Nat) : Nat → List Char → Option Nat
  | acc, [] => some acc
  | acc, c :: cs =>
    match digitOf c with
    | some d => if d < base then digits base (acc * base + d) cs else none
    | none => none

/-- An unsigned number: decimal or `0x` hex. -/
def natOf : List Char → Option Nat
  | [] => none
  | '0' :: 'x' :: c :: cs => digits 16 0 (c :: cs)
  | c :: cs => digits 10 0 (c :: cs)

/-- "a negative value is written `-n`". -/
def intOf : List Char → Option Int
  | '-' :: cs => (natOf cs).map (fun n => -(n : Int))
  | cs => (natOf cs).map (fun n => (n : Int))

/-! ## Operands -/

/-- An unsigned operand of `w` bits. -/
def unsignedOperand (w : Nat) (s : String) : Option (BitVec w) :=
  match natOf s.toList with
  | some n => if n < 2 ^ w then some (BitVec.ofNat w n) else none
  | none => none

/-- A signed operand; its range is checked by `Instr.WellFormed`. -/
def signedOperand (s : String) : Option Int := intOf s.toList

/-- "the flag of SET_TARGET_POSITION is written `abs` (0) or `rel` (1)". -/
def flagOperand : String → Option Bool
  | "abs" => some false
  | "rel" => some true
  | _ => none

/-- "a mode is written as a name from rule R116 or as a code". -/
def modeOperand : String → Option Int
  | "AutoSetup" => some (-2)
  | "ClockDirection" => some (-1)
  | "No" => some 0
  | "ProfilePosition" => some 1
  | "Velocity" => some 2
  | "ProfileVelocity" => some 3
  | "ProfileTorque" => some 4
  | "Homing" => some 6
  | "InterpolatedPosition" => some 7
  | "CyclicSynchronousPosition" => some 8
  | "CyclicSynchronousVelocity" => some 9
  | "CyclicSynchronousTorque" => some 10
  | s => signedOperand s

/-- "a driveMode is written as a name from rule R115 or as a tag". -/
def driveModeOperand (t : DriveModeTags) : String → Option Byte
  | "StepperOpenLoopNoReduction" => some t.stepperOpenLoopNoReduction
  | "StepperClosedLoop" => some t.stepperClosedLoop
  | "StepperOpenLoopWithReduction" => some t.stepperOpenLoopWithReduction
  | "Bldc" => some t.bldc
  | s => unsignedOperand 8 s

/-! ## Lines -/

/-- The commands a mnemonic and its operands stand for (R101, R104, R122), before the range check. -/
def assembleOps (p : Params) (mnemonic : String) (ops : List String) : Option (List Instr) :=
  match mnemonic, ops with
  | "CURRENT_STATE", [] => some [.currentState]
  | "ENABLE_OPERATION", [] => some [.enableOperation]
  | "DISABLE_OPERATION", [] => some [.disableOperation]
  | "SHUTDOWN", [] => some [.shutdown]
  | "QUICK_STOP", [] => some [.quickStop]
  | "SET_MODE_OF_OPERATION", [m] => do some [.setModeOfOperation (← modeOperand m)]
  | "GET_MODE_OF_OPERATION", [] => some [.getModeOfOperation]
  | "SET_MOTOR_PARAMETERS", [a, b, c, d, e, f] => do
      some [.setMotorParameters (← unsignedOperand 32 a) (← unsignedOperand 32 b) (← unsignedOperand 32 c)
        (← unsignedOperand 32 d) (← unsignedOperand 32 e) (← driveModeOperand p.driveModeTags f)]
  | "GET_MOTOR_PARAMETERS", [] => some [.getMotorParameters]
  | "SAVE_GROUP", [g] => do some [.saveGroup (← unsignedOperand 8 g)]
  | "SET_USER_UNITS_FEED", [a, b] => do some [.setUserUnitsFeed (← unsignedOperand 32 a) (← unsignedOperand 32 b)]
  | "GET_POSITION_ACTUAL", [] => some [.getPositionActual]
  | "GET_SPEED_ACTUAL", [] => some [.getSpeedActual]
  | "GET_VELOCITY_ACTUAL", [] => some [.getVelocityActual]
  | "GET_VELOCITY_DEMANDED", [] => some [.getVelocityDemanded]
  | "HALT", [] => some [.halt]
  | "BIND_HOMING", [] => some [.bindHoming]
  | "BIND_PROFILE_POSITION", [] => some [.bindProfilePosition]
  | "BIND_VELOCITY", [] => some [.bindVelocity]
  | "BIND_AUTO_SETUP", [] => some [.bindAutoSetup]
  | "UNBIND", [] => some [.unbind]
  | "SET_HOMING_SPEED", [a, b] => do some [.setHomingSpeed (← unsignedOperand 32 a) (← unsignedOperand 32 b)]
  | "SET_HOMING_MODE", [m] => do some [.setHomingMode (← signedOperand m)]
  | "SET_HOMING_ACCELERATION", [a] => do some [.setHomingAcceleration (← unsignedOperand 32 a)]
  | "START_HOMING", [] => some [.startHoming]
  | "HOME", [] => some [.home p.homeDefaultZero p.homeDefaultSwitch]
  | "HOME", [a, b] => do some [.home (← unsignedOperand 32 a) (← unsignedOperand 32 b)]
  | "GET_HOMING_STATE", [] => some [.getHomingState]
  | "SET_TARGET_POSITION", [v, r] => do some [.setTargetPosition (← signedOperand v) (← flagOperand r)]
  | "SET_PROFILE_VELOCITY", [a] => do some [.setProfileVelocity (← unsignedOperand 32 a)]
  | "SET_PROFILE_ACCELERATION", [a] => do some [.setProfileAcceleration (← unsignedOperand 32 a)]
  | "START_POSITIONING", [] => some [.startPositioning]
  | "SET_USER_UNITS_POSITIONING", [a, b] => do
      some [.setUserUnitsPositioning (← unsignedOperand 8 a) (← unsignedOperand 8 b)]
  | "GET_USER_UNITS_POSITIONING", [] => some [.getUserUnitsPositioning]
  | "SET_TARGET_VELOCITY", [v] => do some [.setTargetVelocity (← signedOperand v)]
  | "SET_VELOCITY_ACCELERATION", [a, b] => do
      some [.setVelocityAcceleration (← unsignedOperand 32 a) (← unsignedOperand 32 b)]
  | "GET_VELOCITY_ACCELERATION", [] => some [.getVelocityAcceleration]
  | "SET_VELOCITY_DECELERATION", [a, b] => do
      some [.setVelocityDeceleration (← unsignedOperand 32 a) (← unsignedOperand 32 b)]
  | "GET_VELOCITY_DECELERATION", [] => some [.getVelocityDeceleration]
  | "START_VELOCITY", [] => some [.startVelocity]
  | "SET_USER_UNITS_VELOCITY", [a, b, c] => do
      some [.setUserUnitsVelocity (← unsignedOperand 8 a) (← unsignedOperand 8 b) (← unsignedOperand 8 c)]
  | "GET_USER_UNITS_VELOCITY", [] => some [.getUserUnitsVelocity]
  | "AUTO_SETUP_MOTOR_PARAMETERS", [] => some [.autoSetupMotorParameters]
  | "MOVE_ABS", [v] => do some [.setTargetPosition (← signedOperand v) false, .startPositioning]
  | "MOVE_REL", [v] => do some [.setTargetPosition (← signedOperand v) true, .startPositioning]
  | _, _ => none

/-- The operand strings of the rest of a line. -/
def operandStrings (l : List Char) : List String :=
  match trimBlanks l with
  | [] => []
  | c :: cs => (splitCommas (c :: cs)).map (fun o => String.ofList (trimBlanks o))

/-- A line of assembler: the commands it stands for, none for a blank or comment line; refused when it is no command or
an operand does not fit its field. -/
def assembleLine (p : Params) (line : String) : Option (List Instr) :=
  match trimBlanks (dropComment line.toList) with
  | [] => some []
  | c :: cs =>
    match assembleOps p (String.ofList ((c :: cs).takeWhile (fun x => !isBlank x)))
        (operandStrings ((c :: cs).dropWhile (fun x => !isBlank x))) with
    | some is => if is.all Instr.fits then some is else none
    | none => none

/-- The frames of assembled commands, in order. -/
def frames (is : List Instr) : List Frame :=
  is.filterMap (fun i =>
    match encode i with
    | .command f => some f
    | .microOp _ _ => none)

end Sys2Proof.Machine
end

