-- ==== Sys2Proof/Tests/Slice0.lean ====
section
/-! SUPPORT. Tests: the WellFormed checks, codes written out from the spec's encoding tables, the tables and vectors of
spec/95_test_vectors.md one step at a time, and a witness for the hypotheses of every statement. Expected values are
the spec's. -/

namespace Sys2Proof.Tests

open Sys2Proof Sys2Proof.Machine

/-! ## Small states -/

/-- A command just issued under `c`, with the collaborator's answers to come. -/
def issued (c : Ctrl) (bus : List Answer) (timer : Nat := 0) : State :=
  { State.reset with
    ctrl := c
    bus := bus
    timer := timer
    port := .busy
    seq := some .fresh }

/-- A command under way before `todo`, with the working value `v`. -/
def running (c : Ctrl) (todo : List Stmt) (v : Word) (bus : List Answer) : State :=
  { State.reset with
    ctrl := c
    bus := bus
    port := .busy
    seq := some { Sequencer.fresh with step := .before todo, v := v } }

/-- The events of a next state, newest only. -/
def lastEvent : Result → Option Event
  | .next t => t.trace.getLast?
  | _ => none

/-- `STATUS` and `RES[0]` of a next state in which no command runs. -/
def endOf : Result → Option (Byte × Word)
  | .next t => if t.seq.isNone then some (t.status, t.res.r0) else none
  | _ => none

/-- The text still to come in a next state. -/
def todoOf : Result → Option (List Stmt)
  | .next t => t.seq.map Sequencer.todo
  | _ => none

/-- The answers that read as the given values. -/
def oks (xs : List DWord) : List Answer := xs.map .ok

/-! ## WellFormed: one ill-formed term for each check -/

theorem test_illFormed_mode : ¬ (Instr.setModeOfOperation 128).WellFormed := by decide
theorem test_illFormed_mode_low : ¬ (Instr.setModeOfOperation (-129)).WellFormed := by decide
theorem test_illFormed_method : ¬ (Instr.setHomingMode 2147483648).WellFormed := by decide
theorem test_illFormed_position : ¬ (Instr.setTargetPosition (-2147483649) false).WellFormed := by decide
theorem test_illFormed_velocity : ¬ (Instr.setTargetVelocity 2147483648).WellFormed := by decide

/-! ## Codes written out from R101, R102 and R104 -/

/-- A frame with the operand words that matter. -/
def frm (opc : Byte) (a0 a1 a2 a3 a4 a5 : Word := 0) : Code := .command ⟨opc, ⟨a0, a1, a2, a3, a4, a5⟩⟩

theorem test_decode_power_state :
    decode (frm 0x10) = .ok .currentState ∧ decode (frm 0x11) = .ok .enableOperation ∧
    decode (frm 0x12) = .ok .disableOperation ∧ decode (frm 0x13) = .ok .shutdown ∧
    decode (frm 0x14) = .ok .quickStop := by decide

theorem test_decode_motion_base :
    decode (frm 0x20 0x000000FE) = .ok (.setModeOfOperation (-2)) ∧
    decode (frm 0x20 0xFFFFFF06) = .ok (.setModeOfOperation 6) ∧
    decode (frm 0x21) = .ok .getModeOfOperation ∧
    decode (frm 0x22 1 2 3 4 5 0xABCDEF41) = .ok (.setMotorParameters 1 2 3 4 5 0x41) ∧
    decode (frm 0x23) = .ok .getMotorParameters ∧ decode (frm 0x24 0x0000010B) = .ok (.saveGroup 0x0B) ∧
    decode (frm 0x25 360 1) = .ok (.setUserUnitsFeed 360 1) ∧ decode (frm 0x26) = .ok .getPositionActual ∧
    decode (frm 0x27) = .ok .getSpeedActual ∧ decode (frm 0x28) = .ok .getVelocityActual ∧
    decode (frm 0x29) = .ok .getVelocityDemanded ∧ decode (frm 0x2A) = .ok .halt := by decide

theorem test_decode_binding :
    decode (frm 0x30) = .ok .bindHoming ∧ decode (frm 0x31) = .ok .bindProfilePosition ∧
    decode (frm 0x32) = .ok .bindVelocity ∧ decode (frm 0x33) = .ok .bindAutoSetup ∧
    decode (frm 0x34) = .ok .unbind := by decide

theorem test_decode_homing :
    decode (frm 0x40 10 50) = .ok (.setHomingSpeed 10 50) ∧ decode (frm 0x41 0xFFFFFFFF) = .ok (.setHomingMode (-1)) ∧
    decode (frm 0x42 500) = .ok (.setHomingAcceleration 500) ∧ decode (frm 0x43) = .ok .startHoming ∧
    decode (frm 0x44 10 50) = .ok (.home 10 50) ∧ decode (frm 0x45) = .ok .getHomingState := by decide

theorem test_decode_profile_position :
    decode (frm 0x50 0xFFFFF830 0x00000001) = .ok (.setTargetPosition (-2000) true) ∧
    decode (frm 0x50 0x80000000 0xFFFFFFFE) = .ok (.setTargetPosition (-2147483648) false) ∧
    decode (frm 0x51 200) = .ok (.setProfileVelocity 200) ∧ decode (frm 0x52 300) = .ok (.setProfileAcceleration 300) ∧
    decode (frm 0x53) = .ok .startPositioning ∧
    decode (frm 0x54 0x41 0xFF) = .ok (.setUserUnitsPositioning 0x41 0xFF) ∧
    decode (frm 0x55) = .ok .getUserUnitsPositioning := by decide

theorem test_decode_velocity :
    decode (frm 0x60 0xFFFFFF38) = .ok (.setTargetVelocity (-200)) ∧
    decode (frm 0x61 1000 1) = .ok (.setVelocityAcceleration 1000 1) ∧ decode (frm 0x62) = .ok .getVelocityAcceleration ∧
    decode (frm 0x63 2000 3) = .ok (.setVelocityDeceleration 2000 3) ∧ decode (frm 0x64) = .ok .getVelocityDeceleration ∧
    decode (frm 0x65) = .ok .startVelocity ∧ decode (frm 0x66 0xA4 0x00 0x03) = .ok (.setUserUnitsVelocity 0xA4 0x00 0x03) ∧
    decode (frm 0x67) = .ok .getUserUnitsVelocity := by decide

theorem test_decode_auto_setup : decode (frm 0x70) = .ok .autoSetupMotorParameters := by decide

/-- Every micro-op row of R102; CW_DISABLE_OPERATION's row is CW_SWITCH_ON's (R146). -/
theorem test_decode_micro_ops :
    decode (.microOp 0x0087 0x0006) = .ok .cwShutdown ∧ decode (.microOp 0x008F 0x0007) = .ok .cwSwitchOn ∧
    decode (.microOp 0x008F 0x000F) = .ok .cwEnableOperation ∧ decode (.microOp 0x0082 0x0000) = .ok .cwDisableVoltage ∧
    decode (.microOp 0x0086 0x0002) = .ok .cwQuickStop ∧ decode (.microOp 0x0004 0x0000) = .ok .cwQsRecover1 ∧
    decode (.microOp 0x0080 0x0000) = .ok .cwFaultResetLow ∧ decode (.microOp 0x0080 0x0080) = .ok .cwFaultResetHigh ∧
    decode (.microOp 0x0010 0x0010) = .ok .cwStartSet ∧ decode (.microOp 0x0010 0x0000) = .ok .cwStartClear ∧
    decode (.microOp 0x0100 0x0100) = .ok .cwHaltSet ∧ decode (.microOp 0x0100 0x0000) = .ok .cwHaltClear ∧
    decode (.microOp 0x0050 0x0000) = .ok .cwPpTargetAbs ∧ decode (.microOp 0x0050 0x0040) = .ok .cwPpTargetRel ∧
    decode (.microOp 0x0130 0x0030) = .ok .cwPpStart ∧ decode (.microOp 0xFFFF 0x0000) = .ok .cwClearAll ∧
    encode .cwDisableOperation = .microOp 0x008F 0x0007 := by decide

/-- Unassigned opcodes (table G1) and a pair that is no row of R102. -/
theorem test_decode_refused :
    decode (frm 0x15) = .error (.unassignedOpcode 0x15) ∧ decode (frm 0x71) = .error (.unassignedOpcode 0x71) ∧
    decode (.microOp 0x0001 0x0001) = .error (.noSuchMicroOp 0x0001 0x0001) := by decide

/-- The mask and match columns of R102 are the bits set or cleared and the bits set. -/
theorem test_micro_op_columns :
    ∀ op ∈ CwOp.all, op ≠ .clearAll → cwSet op ||| cwClr op = op.mask ∧ cwSet op = op.mtch := by decide

/-- The micro-ops are listed whole, and the table order and the bit order list the same ones. -/
theorem test_micro_op_lists : ∀ op : CwOp, op ∈ CwOp.all ∧ op ∈ CwOp.bySetBits := by
  intro op; cases op <;> decide

/-- Words of spec/opcode_table.json, as it numbers bits. -/
theorem test_table_words :
    decodeTableWord 8 0x10 = some .currentState ∧ decodeTableWord 8 0x2A = some .halt ∧
    decodeTableWord 40 0x000000FE20 = some (.setModeOfOperation (-2)) ∧
    decodeTableWord 72 0x00000032_0000000A_40 = some (.setHomingSpeed 10 50) ∧
    decodeTableWord 16 0x0006 = some .cwShutdown ∧ decodeTableWord 16 0x000F = some .cwEnableOperation ∧
    decodeTableWord 16 0x0000 = some .cwClearAll ∧ decodeTableWord 8 0x15 = none := by decide

/-- A placed word is what the next step runs. -/
theorem test_placed_word :
    current (State.reset.withFetchWord 72 0x00000032_0000000A_40) = some (.setHomingSpeed 10 50) ∧
    current (State.reset.withFetchWord 16 0x0006) = some .cwShutdown := by decide

/-! ## The tables of spec/95_test_vectors.md -/

/-- Table C1, columns 0xFFFF and 0x013F. -/
theorem test_table_c1 :
    CwOp.all.map (fun op => cwWord op 0xFFFF) =
      [0xFF7E, 0xFF77, 0xFF7F, 0xFF77, 0xFF7D, 0xFF7B, 0xFFFB, 0xFF7F, 0xFFFF, 0xFFFF, 0xFFEF, 0xFFFF, 0xFEFF, 0xFFAF,
        0xFFEF, 0xFEFF, 0x0000] ∧
    CwOp.all.map (fun op => cwWord op 0x013F) =
      [0x013E, 0x0137, 0x013F, 0x0137, 0x013D, 0x013B, 0x013B, 0x013F, 0x01BF, 0x013F, 0x012F, 0x013F, 0x003F, 0x012F,
        0x016F, 0x003F, 0x0000] := by decide

/-- Table D1. -/
theorem test_table_d1 :
    ([0x0000, 0x0080, 0xFFB0, 0x0060, 0x8250, 0x0031, 0x0233, 0x0237, 0x00A7, 0x0017, 0x002F, 0x0028] :
        List HalfWord).map (decodeState defaultTemplates) =
      [some .notReadyToSwitchOn, some .notReadyToSwitchOn, some .notReadyToSwitchOn, some .switchedOnDisabled,
        some .switchedOnDisabled, some .readyToSwitchOn, some .switchedOn, some .operationEnabled,
        some .operationEnabled, some .quickStopActive, some .faultReactionActive, some .fault] := rfl

theorem test_table_d1_unknown :
    ([0x0048, 0x004F, 0x0047, 0x0001, 0x0003, 0x0061, 0x0067, 0xFFFF] : List HalfWord).map
      (decodeState defaultTemplates) = [none, none, none, none, none, none, none, none] := rfl

/-- Table D2. -/
theorem test_table_d2 :
    ([0x0027, 0x0427, 0x1027, 0x1427, 0x2027, 0x2427, 0x3027, 0x3427, 0xC3FF, 0xDBFF, 0x0B00, 0xFFFF] :
        List HalfWord).map decodeHoming =
      [some .inProgress, some .incomplete, some .unachieved, some .completed, some .errorStillMoving, some .errorHalt,
        none, none, some .inProgress, some .unachieved, some .inProgress, none] := by decide

/-- Table U1. -/
theorem test_table_u1 :
    packPos 0xAB125678 0x41 0xFF = 0xFF415678 ∧ packPos 0xFFFFFFFF 0x00 0x00 = 0x0000FFFF ∧
    packVel 0x12345678 0xA4 0x00 0x03 = 0x00A40378 ∧ packVel 0xFFFFFFFF 0x01 0xFD 0x00 = 0xFD0100FF := by decide

/-- Table D4, the rows of 0x49 and 0xFFFFFFFF, and the read-back of 0x40, 0x48, 0x09 and 0x49. -/
theorem test_table_d4 :
    ([0x00, 0x01, 0x08, 0x41, 0x02] : List Byte).map (fun g => driveModeWord defaultDriveModeTags g 0x00000049) =
      [some 0x00000000, some 0x00000009, some 0x00000008, some 0x00000049, none] ∧
    ([0x00, 0x01, 0x08, 0x41] : List Byte).map (fun g => driveModeWord defaultDriveModeTags g 0xFFFFFFFF) =
      [some 0xFFFFFFB6, some 0xFFFFFFBF, some 0xFFFFFFBE, some 0xFFFFFFFF] ∧
    ([0x40, 0x48, 0x09, 0x49] : List Word).map (driveModeTagOf defaultDriveModeTags) = [0x00, 0x08, 0x01, 0x41] := by
  decide

/-! ## One step of each instruction -/

theorem test_currentState :
    endOf (exec .currentState (running .unbound [.test .currentStateResult] 0x0237 [])) = some (0x00, 4) ∧
    endOf (exec .currentState (running .unbound [.test .currentStateResult] 0x0048 [])) = some (0x11, 0) := by decide

/-- PW3. -/
theorem test_currentState_fails : endOf (exec .currentState (issued .unbound [.error 0x77])) = some (0x01, 0x77) := by
  decide

/-- EN2's turn on 0x0021: the micro-op is CW_SWITCH_ON. -/
theorem test_enableOperation :
    lastEvent (exec .enableOperation (running .unbound [.act (.cwWrite .switchOn), .act (.read .sw)] 0x0006 (oks [0]))) =
      some (.write 0 ⟨0x6040, 0⟩ .w16 0x0007) := by decide

/-- EN1: OperationEnabled seen twice ends the loop. -/
theorem test_enableOperation_settles :
    endOf (exec .enableOperation
      { running .unbound [] 0 [] with
        seq := some { Sequencer.fresh with step := .before [.test .enableState], v := 0x27, prev := some .operationEnabled } }) =
      some (0x00, 0) := by decide

/-- DIS2. -/
theorem test_disableOperation :
    endOf (exec .disableOperation (running .unbound [.test .disableRecheck] 0x0027 [])) = some (0x12, 0) := by decide

/-- SHUTDOWN from QuickStopActive is CW_DISABLE_VOLTAGE. -/
theorem test_shutdown :
    todoOf (exec .shutdown (running .unbound [.test .shutdownState] 0x0007 (oks [0x000B]))) =
      some [.act (.cwWrite .disableVoltage)] := by decide

/-- QUICK_STOP outside OperationEnabled only re-reads. -/
theorem test_quickStop :
    lastEvent (exec .quickStop
        (running .unbound [.test .quickStopState, .act (.read .sw), .test .quickStopRecheck] 0x0023 (oks [0x0023]))) =
      some (.read 0 ⟨0x6041, 0⟩ .w16 0x0023) := by decide

/-- MO2: the mode -2 is the byte 0xFE. -/
theorem test_setModeOfOperation :
    lastEvent (exec (.setModeOfOperation (-2))
        (running .unbound [.act (.write .mode (BitVec.ofInt 32 (-2)))] 0 (oks [0]))) =
      some (.write 0 ⟨0x6060, 0⟩ .w8 0xFE) := by decide

/-- MO5. -/
theorem test_getModeOfOperation :
    endOf (exec .getModeOfOperation (running .unbound [.test .modeResult] 0x000000FE [])) = some (0x00, 0xFFFFFFFE) := by
  decide

/-- MP1: an unknown tag, with no write of the drive-mode register. -/
theorem test_setMotorParameters :
    endOf (exec (.setMotorParameters 1 2 3 4 5 0x02)
        (running .unbound [.test (.driveModeEdit 0x02), .act (.writeWorking .driveMode)] 0 (oks [0]))) =
      some (0x25, 0) := by decide

theorem test_getMotorParameters :
    lastEvent (exec .getMotorParameters (issued .unbound (oks [0x32]))) =
      some (.read 0 ⟨0x2030, 0⟩ .w32 0x32) := by decide

/-- The signature, then a poll that is not 1 waits. -/
theorem test_saveGroup :
    lastEvent (exec (.saveGroup 2) (running .unbound [.act (.write (.save 2) 0x65766173)] 0 (oks [0]))) =
      some (.write 0 ⟨0x1010, 2⟩ .w32 0x65766173) ∧
    lastEvent (exec (.saveGroup 2) { running .unbound [.test (.pollCheck (.save 2))] 2 [] with timer := 1 }) =
      some (.wait 100) := by decide

theorem test_setUserUnitsFeed :
    lastEvent (exec (.setUserUnitsFeed 360 1) (running .unbound [.act (.write .feedDen 1)] 0 (oks [0]))) =
      some (.write 0 ⟨0x6092, 2⟩ .w32 1) := by decide

theorem test_actual_values :
    lastEvent (exec .getPositionActual (issued .unbound (oks [0xFFFFFFFFFFFFFFFF]))) =
      some (.read 0 ⟨0x6064, 0⟩ .w32 0xFFFFFFFF) ∧
    lastEvent (exec .getSpeedActual (issued .unbound (oks [7]))) = some (.read 0 ⟨0x606C, 0⟩ .w32 7) ∧
    lastEvent (exec .getVelocityActual (issued .unbound (oks [7]))) = some (.read 0 ⟨0x6044, 0⟩ .w32 7) ∧
    lastEvent (exec .getVelocityDemanded (issued .unbound (oks [7]))) = some (.read 0 ⟨0x6043, 0⟩ .w32 7) := by decide

/-- Table BH-MODES: Homing (6) is no halt mode; InterpolatedPosition (7) is. -/
theorem test_halt :
    endOf (exec .halt (running .unbound (haltText defaultParams .unbound).tail 6 [])) = some (0x23, 0) ∧
    lastEvent (exec .halt (running .unbound (haltText defaultParams .unbound).tail 7 (oks [0]))) =
      some (.write 0 ⟨0x605D, 0⟩ .w32 1) := by decide

/-- HALT finds `CTRL` at a value that is never held. -/
theorem test_halt_never_held : exec .halt (issued (.neverHeld 0) []) = .fault .ctrlNeverHeld := rfl

/-- A BIND_* whose drive already has the mode sets `CTRL`; one that fails leaves nothing bound. -/
theorem test_bind :
    (match exec .bindHoming
        { running .unbound [] 0 [] with
          seq := some { Sequencer.fresh with step := .before [.test (.modeDiffers 6)], v := 6, bind := some .homing } } with
      | .next t => t.ctrl
      | _ => .unbound) = .homing ∧
    (match exec .bindVelocity (issued .homing [.error 1]) with
      | .next t => t.ctrl
      | _ => .homing) = .unbound := by decide

theorem test_bind_modes :
    [Ctrl.homing, .profilePosition, .velocity, .autoSetup].map bindMode = [6, 1, 2, -2] := by decide

theorem test_bindProfilePosition :
    todoOf (exec .bindProfilePosition (issued .unbound (oks [6]))) = some [.test (.modeDiffers 1)] := by decide

theorem test_bindAutoSetup :
    todoOf (exec .bindAutoSetup (issued .unbound (oks [6]))) = some [.test (.modeDiffers (-2))] := by decide

theorem test_unbind : exec .unbind (issued .velocity []) =
    .next { State.reset with completed := true } := rfl

/-- HS1, and HS4 at the boundary. -/
theorem test_setHomingSpeed :
    endOf (exec (.setHomingSpeed 60 50) (issued .homing (oks [0, 0]))) = some (0x24, 0) ∧
    endOf (exec (.setHomingSpeed 50 50) (issued .homing (oks [0, 0]))) = some (0x24, 0) ∧
    lastEvent (exec (.setHomingSpeed 0x7FFFFFFF 0x80000000) (issued .homing (oks [0, 0]))) =
      some (.write 0 ⟨0x6099, 2⟩ .w32 0x7FFFFFFF) := by decide

theorem test_setHomingMode :
    lastEvent (exec (.setHomingMode (-1)) (issued .homing (oks [0]))) = some (.write 0 ⟨0x6098, 0⟩ .w32 0xFFFFFFFF) := by
  decide

theorem test_setHomingAcceleration :
    lastEvent (exec (.setHomingAcceleration 500) (issued .homing (oks [0]))) = some (.write 0 ⟨0x609A, 0⟩ .w32 500) := by
  decide

/-- InProgress is aborted by clearing the start bit; Completed is not. -/
theorem test_startHoming :
    todoOf (exec .startHoming (running .homing [.test .homingAbort] 0x0027 (oks [0]))) =
      some [.act (.cwWrite .startClear)] ∧
    endOf (exec .startHoming (running .homing [.test .homingAbort] 0x3027 (oks [0]))) = some (0x26, 0) := by decide

/-- HO1 and HO2's first write. -/
theorem test_home :
    endOf (exec (.home 60 50) (issued .homing (oks [0]))) = some (0x24, 0) ∧
    lastEvent (exec (.home 10 50) (issued .homing (oks [0]))) = some (.write 0 ⟨0x6099, 2⟩ .w32 0x0A) := by decide

theorem test_getHomingState :
    endOf (exec .getHomingState (running .homing [.test .homingResult] 0x1427 [])) = some (0x00, 3) ∧
    endOf (exec .getHomingState (issued .velocity (oks [0x1427]))) = some (0x02, 0) := by decide

/-- One control-word write sets the relative bit and clears the start bit. -/
theorem test_setTargetPosition :
    lastEvent (exec (.setTargetPosition (-2000) true)
        (running .profilePosition [.act (.cwWrite .ppTargetRel)] 0x001F (oks [0]))) =
      some (.write 0 ⟨0x6040, 0⟩ .w16 0x004F) ∧
    lastEvent (exec (.setTargetPosition (-2000) true)
        (running .profilePosition [.act (.write .targetPosition (BitVec.ofInt 32 (-2000)))] 0 (oks [0]))) =
      some (.write 0 ⟨0x607A, 0⟩ .w32 0xFFFFF830) := by decide

theorem test_setProfileVelocity :
    lastEvent (exec (.setProfileVelocity 200) (issued .profilePosition (oks [0]))) =
      some (.write 0 ⟨0x6081, 0⟩ .w32 200) := by decide

theorem test_setProfileAcceleration :
    lastEvent (exec (.setProfileAcceleration 300) (issued .profilePosition (oks [0]))) =
      some (.write 0 ⟨0x6083, 0⟩ .w32 300) := by decide

/-- The strobe sets bits 4 and 5 and clears bit 8. -/
theorem test_startPositioning :
    lastEvent (exec .startPositioning (running .profilePosition [.act (.cwWrite .ppStart)] 0x010F (oks [0]))) =
      some (.write 0 ⟨0x6040, 0⟩ .w16 0x003F) := by decide

/-- UP1 and UP2. -/
theorem test_userUnitsPositioning :
    lastEvent (exec (.setUserUnitsPositioning 0x41 0xFF)
        (running .profilePosition [.test (.packPos 0x41 0xFF), .act (.writeWorking .posUnits)] 0xAB125678 (oks [0]))) =
      some (.write 0 ⟨0x60A8, 0⟩ .w32 0xFF415678) ∧
    endOf (exec .getUserUnitsPositioning (running .profilePosition [.test .posUnitsResult] 0xFF415678 [])) =
      some (0x00, 0x41) := by decide

theorem test_setTargetVelocity :
    lastEvent (exec (.setTargetVelocity (-200)) (issued .velocity (oks [0]))) =
      some (.write 0 ⟨0x6042, 0⟩ .w32 0xFFFFFF38) := by decide

theorem test_velocityAcceleration :
    lastEvent (exec (.setVelocityAcceleration 1000 1) (issued .velocity (oks [0]))) =
      some (.write 0 ⟨0x6048, 1⟩ .w32 1000) ∧
    lastEvent (exec .getVelocityAcceleration (issued .velocity (oks [9]))) = some (.read 0 ⟨0x6048, 1⟩ .w32 9) := by decide

theorem test_velocityDeceleration :
    lastEvent (exec (.setVelocityDeceleration 1000 1) (issued .velocity (oks [0]))) =
      some (.write 0 ⟨0x6049, 1⟩ .w32 1000) ∧
    lastEvent (exec .getVelocityDeceleration (issued .velocity (oks [9]))) = some (.read 0 ⟨0x6049, 1⟩ .w32 9) := by decide

/-- The limit-switch option first. -/
theorem test_startVelocity :
    lastEvent (exec .startVelocity (issued .velocity (oks [0]))) = some (.write 0 ⟨0x3701, 0⟩ .w32 2) := by decide

/-- UV: pack_vel of table U1. -/
theorem test_userUnitsVelocity :
    lastEvent (exec (.setUserUnitsVelocity 0xA4 0x00 0x03)
        (running .velocity [.test (.packVel 0xA4 0x00 0x03), .act (.writeWorking .velUnits)] 0x12345678 (oks [0]))) =
      some (.write 0 ⟨0x60A9, 0⟩ .w32 0x00A40378) ∧
    endOf (exec .getUserUnitsVelocity (running .velocity [.test .velUnitsResult] 0x00A40378 [])) = some (0x00, 0xA4) := by
  decide

/-- The precondition fails when bits 9, 5 and 0 are all set, by the default sense. -/
theorem test_autoSetup :
    endOf (exec .autoSetupMotorParameters (running .autoSetup [.test .precondition] 0x0221 [])) = some (0x22, 0) ∧
    endOf (exec .autoSetupMotorParameters (running .autoSetup [.test .precondition] 0x0220 [])) = some (0x00, 0) := by
  decide

/-- Every micro-op writes its column of table C1 over 0x000F. -/
theorem test_micro_op_writes :
    CwOp.all.map (fun op => lastEvent (exec op.instr (running .unbound [.act (.cwWrite op)] 0x000F (oks [0])))) =
      ([0x000E, 0x0007, 0x000F, 0x0007, 0x000D, 0x000B, 0x000B, 0x000F, 0x008F, 0x001F, 0x000F, 0x010F, 0x000F, 0x000F,
          0x004F, 0x003F, 0x0000] : List Word).map
        (fun v => some (.write 0 ⟨0x6040, 0⟩ .w16 v)) := by decide

/-! ## The gate, the port, the assembler -/

/-- Table G1. -/
theorem test_gate :
    endOf (step { issued .unbound [] with opc := 0x40 }) = some (0x02, 0) ∧
    endOf (step { issued .homing [] with opc := 0x50 }) = some (0x02, 0) ∧
    endOf (step { issued .velocity [] with opc := 0x70 }) = some (0x02, 0) ∧
    endOf (step { issued .homing [] with opc := 0x46 }) = some (0x02, 0) ∧
    endOf (step { issued .unbound [] with opc := 0x34 }) = some (0x00, 0) := by decide

/-- A core with no answer waits. -/
theorem test_waits : step { issued .unbound [] with opc := 0x10 } = .next { issued .unbound [] with opc := 0x10 } := rfl

theorem test_host_read_fault : step { State.reset with host := [.readStatus] } = .fault .hostReadBeforeCompletion := rfl

theorem test_assembler :
    assembleLine defaultParams "HOME" = some [.home 10 50] ∧
    assembleLine defaultParams "MOVE_REL -2000 ; back" =
      some [.setTargetPosition (-2000) true, .startPositioning] ∧
    assembleLine defaultParams "SET_MODE_OF_OPERATION Homing" = some [.setModeOfOperation 6] ∧
    assembleLine defaultParams "SAVE_GROUP 0x100" = none ∧ assembleLine defaultParams "; nothing" = some [] := by decide

/-! ## Witnesses: states and operands that meet the hypotheses of the statements -/

/-- `DecodeOfEncode`: the ends of the signed fields. -/
theorem test_witness_DecodeOfEncode :
    (Instr.setModeOfOperation (-128)).WellFormed ∧ (Instr.setModeOfOperation 127).WellFormed ∧
    (Instr.setTargetPosition (-2147483648) true).WellFormed ∧ (Instr.setTargetVelocity 2147483647).WellFormed ∧
    Instr.cwDisableOperation.WellFormed := by decide

/-- `EncodeOfDecode`, with bits set outside the fields. -/
theorem test_witness_EncodeOfDecode :
    decodeFrame ⟨0x20, ⟨0xFFFFFF80, 0xFFFFFFFF, 0, 0, 0, 0⟩⟩ = .ok (.setModeOfOperation (-128)) := by decide

/-- `UnassignedOpcodesRefused`: the least, a middle and the greatest opcode. -/
theorem test_witness_UnassignedOpcodesRefused :
    ∀ o ∈ ([0x00, 0x15, 0xFF] : List Byte),
      o ∉ assignedOpcodes ∧ { issued .unbound [] with opc := o }.host = [] ∧
        { issued .unbound [] with opc := o }.opc ∉ assignedOpcodes := by decide

theorem test_witness_DefaultTemplatesDisjoint : (0x0027 : HalfWord) &&& 0x006F = 0xFFB7 &&& 0x006F := by decide

theorem test_witness_MicroOpWords :
    CwOp.faultResetHigh ≠ .clearAll ∧
    CwOp.faultResetHigh ∈ [CwOp.shutdown, .switchOn, .enableOperation, .disableOperation, .disableVoltage, .quickStop,
      .qsRecover1, .faultResetLow, .faultResetHigh] := by decide

theorem test_witness_DriveModeRoundTrip : driveModeWord defaultDriveModeTags 0x41 0x00000006 = some 0x00000047 := by
  decide

theorem test_witness_ResetState : State.reset.port = .idle ∧ State.reset.host = [] := by decide

theorem test_witness_IssueLatchesTheFrame :
    { State.reset with host := [.issue ⟨0x10, Bank.zero⟩] }.port = .idle := by decide

/-- `HostPortMoves`: each clause's state. -/
theorem test_witness_HostPortMoves :
    { issued .unbound [] with host := [.writePort ⟨0x10, Bank.zero⟩] }.port = .busy ∧
    { State.reset with host := [.writePort ⟨0x10, Bank.zero⟩] }.port = .idle ∧
    { State.reset with host := [.readStatus] }.completed = false ∧
    { State.reset with host := [.readRes 5] }.completed = false ∧
    { State.reset with host := [.readStatus], completed := true }.completed = true ∧
    { State.reset with host := [.readRes 0], completed := true }.completed = true := by decide

theorem test_witness_StepRunsTheDecodedInstruction :
    { issued .unbound [] with opc := 0x10 }.port = .busy ∧
    current { issued .unbound [] with opc := 0x10 } = some .currentState ∧
    current { issued .unbound [] with opc := 0x11, host := [.issue ⟨0x10, Bank.zero⟩] } = some .enableOperation ∧
    current { issued .unbound [] with opc := 0x10, host := [.awaitIdle] } = some .currentState ∧
    current (running .unbound [.act (.cwWrite .startSet)] 0 []) = some .cwStartSet := by decide

/-- `StepsRunTheLatchedCommand`: no step yet, and one. -/
theorem test_witness_StepsRunTheLatchedCommand :
    decodeFrame { issued .unbound (oks [0x27]) with opc := 0x10 }.frame = .ok .currentState ∧
    Issued { issued .unbound (oks [0x27]) with opc := 0x10 } ∧
    runExec .currentState 0 { issued .unbound (oks [0x27]) with opc := 0x10 } =
      .next { issued .unbound (oks [0x27]) with opc := 0x10 } ∧
    ∃ t, runExec .currentState 1 { issued .unbound (oks [0x27]) with opc := 0x10 } = .next t ∧ t.port = .busy :=
  ⟨by decide, ⟨rfl, rfl⟩, rfl, _, rfl, rfl⟩

/-- `GateRefusals`: a held controller that is not the one needed; a controller that is never held. -/
theorem test_witness_GateRefusals :
    (∃ f, encode .startHoming = .command f ∧ Issued (issued .velocity []) ∧ (issued .velocity []).ctrl.Held ∧
      ¬ GateOpen f.opc (issued .velocity []).ctrl) ∧
    (∃ f, encode .startHoming = .command f ∧ Issued (issued (.neverHeld 0) []) ∧
      (issued (.neverHeld 0) []).ctrl = .neverHeld 0 ∧ ¬ GateOpen f.opc (issued (.neverHeld 0) []).ctrl) ∧
    (issued (.neverHeld 2) []).ctrl = .neverHeld 2 := by
  refine ⟨⟨_, rfl, ⟨rfl, rfl⟩, trivial, ?_⟩, ⟨_, rfl, ⟨rfl, rfl⟩, rfl, ?_⟩, rfl⟩ <;>
    (rintro (h | h) <;> revert h <;> decide)

/-- The pure facts below are stated of `State.reset`, whose parameters every `issued` state has. -/
theorem test_issued_params (c : Ctrl) (b : List Answer) (n : Nat) :
    (issued c b n).params = State.reset.params ∧ (issued c b n).dev = State.reset.dev := ⟨rfl, rfl⟩

/-- The start of a command under `c` with the answers `b` is a command just issued, with that `CTRL` and that bus. -/
abbrev Meets (c : Ctrl) (b : List Answer) : Prop :=
  Issued (issued c b) ∧ (issued c b).ctrl = c ∧ (issued c b).bus = b

theorem test_meets (c : Ctrl) (b : List Answer) : Meets c b := ⟨⟨rfl, rfl⟩, rfl, rfl⟩

theorem test_witness_CurrentStateReports :
    Meets .unbound (.ok 0x27 :: []) ∧ Meets .unbound (.error 0xFFFFFFFF :: []) := ⟨test_meets _ _, test_meets _ _⟩

theorem test_witness_GetModeReports :
    Meets .unbound (.ok 0xFE :: []) ∧ Meets .homing (.error 0 :: []) := ⟨test_meets _ _, test_meets _ _⟩

theorem test_witness_ActualValueReads :
    Meets .unbound (.ok 0x8000000000000000 :: []) ∧ Meets .velocity (.error 1 :: []) ∧
    (Instr.getVelocityDemanded, RegName.velDemand) ∈ [(Instr.getPositionActual, RegName.posActual),
      (.getSpeedActual, .speedActual), (.getVelocityActual, .velActual), (.getVelocityDemanded, .velDemand)] :=
  ⟨test_meets _ _, test_meets _ _, by decide⟩

theorem test_witness_GetMotorParametersReports :
    Meets .unbound (.ok 1 :: .ok 2 :: .ok 3 :: .ok 4 :: .ok 5 :: .ok 0x41 :: []) := test_meets _ _

theorem test_witness_VelocityRampReads :
    Meets .velocity (.ok 7 :: .ok 8 :: []) ∧ Meets .velocity (.error 3 :: []) ∧
    Meets .velocity (.ok 7 :: .error 3 :: []) := ⟨test_meets _ _, test_meets _ _, test_meets _ _⟩

theorem test_witness_GetHomingStateReports :
    Meets .homing (.ok 0x1427 :: []) ∧ Meets .homing (.ok 0x3027 :: []) ∧ Meets .homing (.error 3 :: []) :=
  ⟨test_meets _ _, test_meets _ _, test_meets _ _⟩

theorem test_witness_SingleRegisterWrites :
    Meets .homing (.ok 0 :: []) ∧ Meets .profilePosition (.error 1 :: []) ∧ Meets .velocity (.ok 0 :: []) :=
  ⟨test_meets _ _, test_meets _ _, test_meets _ _⟩

theorem test_witness_VelocityRampWrites :
    Meets .velocity (.ok 0 :: .ok 0 :: []) ∧ Meets .velocity (.error 1 :: []) ∧
    Meets .velocity (.ok 0 :: .error 1 :: []) := ⟨test_meets _ _, test_meets _ _, test_meets _ _⟩

/-- Where its clauses meet, and at the ends of the unsigned range. -/
theorem test_witness_SetHomingSpeedOrder :
    (50 : Word).toNat ≤ (50 : Word).toNat ∧ (0xFFFFFFFF : Word).toNat ≤ (0xFFFFFFFF : Word).toNat ∧
    (49 : Word).toNat < (50 : Word).toNat ∧ (0 : Word).toNat < (0xFFFFFFFF : Word).toNat ∧
    Meets .homing (.ok 0 :: .ok 0 :: []) ∧ Meets .homing (.error 1 :: []) ∧ Meets .homing (.ok 0 :: .error 1 :: []) :=
  ⟨by decide, by decide, by decide, by decide, test_meets _ _, test_meets _ _, test_meets _ _⟩

theorem test_witness_UnbindReleases : Meets .velocity [] := test_meets _ _

/-- A command just issued whose disable step finds a drive that is disabled already (DIS4): two reads, no write. -/
abbrev MeetsOff (c : Ctrl) (b : List Answer) (n : Nat := 0) : Prop :=
  Issued (issued c b n) ∧ (issued c b n).ctrl = c ∧ (issued c b n).bus = b ∧ (issued c b n).timer = n ∧
  DisableRun (issued c b n) (oks [0x40, 0x40])
    [readEvent (issued c b n) .sw 0x40, readEvent (issued c b n) .sw 0x40] none

theorem test_meetsOff (c : Ctrl) (b : List Answer) (n : Nat) : MeetsOff c b n := by
  have h : stateShown (issued c b n) 0x40 = some .switchedOnDisabled := by
    show stateShown State.reset 0x40 = _
    decide
  have := DisableRun.reread 0x40 0x40 .switchedOnDisabled [] [] [] h rfl .nil
  rw [h] at this
  exact ⟨⟨rfl, rfl⟩, rfl, rfl, rfl, this⟩

/-- A command just issued whose disable step finds a status word with no state. -/
abbrev MeetsUnknown (c : Ctrl) (b : List Answer) : Prop :=
  Meets c b ∧ DisableRun (issued c b) (oks [0x48]) [readEvent (issued c b) .sw 0x48] (some .unknownState)

theorem test_meetsUnknown (c : Ctrl) (b : List Answer) : MeetsUnknown c b :=
  have h : stateShown (issued c b) 0x48 = none := by
    show stateShown State.reset 0x48 = _
    decide
  ⟨test_meets _ _, .unknown _ h⟩

/-- One read-modify-write. -/
theorem test_cwRun (s : State) (op : CwOp) (h : op ≠ .clearAll) : CwRun s [op] (oks [0, 0]) (cwEvents s op 0 ++ []) :=
  .cons op [] 0 0 [] [] h .nil

theorem test_witness_DisableOperationRuns : MeetsOff .unbound (oks [0x40, 0x40] ++ []) := test_meetsOff _ _ _

theorem test_witness_DisableStepEnds : Meets .unbound (answers [0x08, 0, 0, 0, 0, 0x40] ++ []) := test_meets _ _

/-- One command of each gate. -/
theorem test_witness_DisableFailureEndsTheCommand :
    (disablesFirst (.saveGroup 1) = true ∧ Admitted (.saveGroup 1) (issued .unbound (oks [0x48] ++ [])) ∧
      MeetsUnknown .unbound (oks [0x48] ++ [])) ∧
    disablesFirst (.setUserUnitsVelocity 0 0 0) = true ∧
    Admitted (.setUserUnitsVelocity 0 0 0) (issued .velocity (oks [0x48] ++ [])) ∧
    MeetsUnknown .velocity (oks [0x48] ++ []) :=
  ⟨⟨rfl, ⟨.inl (by decide), by simp⟩, test_meetsUnknown _ _⟩, rfl, ⟨.inr (by decide), by simp⟩, test_meetsUnknown _ _⟩

/-- The drive has the mode or not, at both ends of the byte. -/
theorem test_witness_SetModeOfOperationRuns :
    ((readValue State.reset .mode 0x80).setWidth 8).toInt = -128 ∧ Meets .unbound (.ok 0x80 :: []) ∧
    ((readValue State.reset .mode 0x7F).setWidth 8).toInt ≠ -128 ∧
    MeetsOff .unbound (.ok 0x7F :: (oks [0x40, 0x40] ++ .ok 0 :: [])) ∧
    MeetsUnknown .unbound (.ok 0x7F :: (oks [0x48] ++ [])) :=
  ⟨by decide, test_meets _ _, by decide, test_meetsOff _ _ _, test_meetsUnknown _ _⟩

/-- The ends of a bind at its read, after its read with Ok, and after it with an error. -/
theorem test_witness_BindRuns_ends :
    (∃ t, exec .bindHoming (issued .velocity [.error 9]) = .next t ∧ t.port = .idle ∧ t.status = 0x01) ∧
    (∃ u t, runExec .bindHoming 1 (issued .velocity (oks [6])) = .next u ∧ u.port = .busy ∧
      exec .bindHoming u = .next t ∧ t.port = .idle ∧ t.status = 0x00) ∧
    ∃ u t, runExec .bindHoming 2 (issued .velocity (oks [1, 0x48])) = .next u ∧ u.port = .busy ∧
      exec .bindHoming u = .next t ∧ t.port = .idle ∧ t.status = 0x11 :=
  ⟨⟨_, rfl, rfl, rfl⟩, ⟨_, _, rfl, rfl, rfl, rfl, rfl⟩, _, _, rfl, rfl, rfl, rfl, rfl⟩

theorem test_witness_BindRuns :
    ((readValue State.reset .mode 0xFE).setWidth 8).toInt = -2 ∧ Meets .unbound (.ok 0xFE :: []) ∧
    ((readValue State.reset .mode 0x01).setWidth 8).toInt ≠ 6 ∧
    MeetsOff .unbound (.ok 1 :: (oks [0x40, 0x40] ++ .ok 0 :: [])) ∧
    MeetsUnknown .unbound (.ok 1 :: (oks [0x48] ++ [])) ∧
    MeetsOff .unbound (.ok 1 :: (oks [0x40, 0x40] ++ .error 9 :: [])) ∧ Meets .homing (.error 9 :: []) :=
  ⟨rfl, test_meets _ _, by decide, test_meetsOff _ _ _, test_meetsUnknown _ _, test_meetsOff _ _ _,
    test_meets _ _⟩

/-- A known tag and an unknown one. -/
theorem test_witness_SetMotorParametersRuns :
    driveModeWord State.reset.params.driveModeTags 0x41 (readValue State.reset .driveMode 0x06) = some 0x47 ∧
    MeetsOff .unbound (oks [0x40, 0x40] ++ oks [0, 0, 0, 0, 0, 6, 0]) ∧
    driveModeWord State.reset.params.driveModeTags 0x02 (readValue State.reset .driveMode 0x06) = none ∧
    MeetsOff .unbound (oks [0x40, 0x40] ++ oks [0, 0, 0, 0, 0, 6]) :=
  ⟨rfl, test_meetsOff _ _ _, rfl, test_meetsOff _ _ _⟩

/-- 1 at the first read, 1 at the 300th, and never. -/
theorem test_witness_SaveGroupRuns :
    (∀ x ∈ List.replicate 300 (0 : DWord), readValue State.reset (.save 1) x ≠ 1) ∧
    readValue State.reset (.save 1) 1 = 1 ∧
    (List.replicate 0 (0 : DWord)).length < State.reset.params.savePollMax ∧
    (List.replicate 299 (0 : DWord)).length < State.reset.params.savePollMax ∧
    (List.replicate 300 (0 : DWord)).length = State.reset.params.savePollMax ∧
    MeetsOff .unbound (oks [0x40, 0x40] ++ (oks [0] ++ (answers [] ++ oks [1]))) 0 ∧
    MeetsOff .unbound (oks [0x40, 0x40] ++ (oks [0] ++ (answers (List.replicate 299 0) ++ oks [1])))
      ((List.replicate 299 (0 : DWord)).length + 1) ∧
    MeetsOff .unbound (oks [0x40, 0x40] ++ (oks [0] ++ (answers (List.replicate 300 0) ++ [])))
      ((List.replicate 300 (0 : DWord)).length + 0) :=
  ⟨fun x hx => by rw [List.eq_of_mem_replicate hx]; decide, rfl, by decide,
    by rw [List.length_replicate]; decide, by rw [List.length_replicate]; decide, test_meetsOff _ _ _,
    test_meetsOff _ _ _, test_meetsOff _ _ _⟩

theorem test_witness_SetFeedRuns : MeetsOff .unbound (oks [0x40, 0x40] ++ oks [0, 0]) := test_meetsOff _ _ _

theorem test_witness_PositionUnitsRun :
    MeetsOff .profilePosition (oks [0x40, 0x40] ++ oks [5, 0]) ∧
    MeetsOff .profilePosition (oks [0x40, 0x40] ++ oks [5]) := ⟨test_meetsOff _ _ _, test_meetsOff _ _ _⟩

theorem test_witness_VelocityUnitsRun :
    MeetsOff .velocity (oks [0x40, 0x40] ++ oks [5, 0]) ∧
    MeetsOff .velocity (oks [0x40, 0x40] ++ oks [5]) := ⟨test_meetsOff _ _ _, test_meetsOff _ _ _⟩

/-- A command just issued whose ENABLE_OPERATION loop finds a drive that is enabled already (EN1). -/
abbrev MeetsOn (c : Ctrl) (b : List Answer) (n : Nat := 0) : Prop :=
  Issued (issued c b n) ∧ (issued c b n).ctrl = c ∧ (issued c b n).bus = b ∧ (issued c b n).timer = n ∧
  EnableRun (issued c b n) none 0 (oks [0x27, 0x27])
    [readEvent (issued c b n) .sw 0x27, readEvent (issued c b n) .sw 0x27] none

theorem test_meetsOn (c : Ctrl) (b : List Answer) (n : Nat) : MeetsOn c b n :=
  have h : stateShown (issued c b n) 0x27 = some .operationEnabled := by
    show stateShown State.reset 0x27 = _
    decide
  ⟨⟨rfl, rfl⟩, rfl, rfl, rfl,
    .turn none 0 0x27 .operationEnabled [] [] [.ok 0x27] [] _ _ h (by decide) (by decide) rfl .nil (.settled 0 0x27 h)⟩

/-- A command just issued whose ENABLE_OPERATION loop finds a status word with no state. -/
abbrev MeetsLost (c : Ctrl) (b : List Answer) : Prop :=
  Meets c b ∧ EnableRun (issued c b) none 0 (oks [0x48]) [readEvent (issued c b) .sw 0x48] (some .unknownState)

theorem test_meetsLost (c : Ctrl) (b : List Answer) : MeetsLost c b :=
  have h : stateShown (issued c b) 0x48 = none := by
    show stateShown State.reset 0x48 = _
    decide
  ⟨test_meets _ _, .unknown _ _ _ h⟩

theorem test_witness_EnableOperationRuns :
    MeetsOn .unbound (oks [0x27, 0x27] ++ []) ∧ MeetsLost .unbound (oks [0x48] ++ []) :=
  ⟨test_meetsOn _ _ _, test_meetsLost _ _⟩

/-- The hypotheses of `EnableEndsOnAConstantDrive` on the drive's answers: four turns that show `st`. -/
abbrev ConstantTurns (st : Option PowerState) (q : DWord × List DWord) : Prop :=
  (∀ p ∈ List.replicate 4 q, stateShown State.reset p.1 = st ∧
    p.2.length = 2 * ((st.bind enableOps).getD []).length) ∧
  (List.replicate 4 q).length = State.reset.params.faultResetRetries + 2

theorem test_constantTurns {st : Option PowerState} {q : DWord × List DWord} (h : stateShown State.reset q.1 = st)
    (hl : q.2.length = 2 * ((st.bind enableOps).getD []).length) : ConstantTurns st q :=
  ⟨fun p hp => by rw [List.eq_of_mem_replicate hp]; exact ⟨h, hl⟩, by rw [List.length_replicate]; decide⟩

/-- A state for each end; issued, and at the loop's head with the fault counter at its greatest value. -/
theorem test_witness_EnableEndsOnAConstantDrive :
    ConstantTurns (some .operationEnabled) (0x27, []) ∧ ConstantTurns (some .fault) (8, [0, 1, 2, 3]) ∧
    ConstantTurns (some .quickStopActive) (0x07, [4, 5, 6, 7]) ∧ ConstantTurns (some .notReadyToSwitchOn) (0, []) ∧
    ConstantTurns none (0x48, []) ∧
    AtEnableLoop (issued .unbound ((List.replicate 4 ((8, [0, 1, 2, 3]) : DWord × List DWord)).flatMap
      (fun q => .ok q.1 :: answers q.2) ++ [])) ∧
    AtEnableLoop { issued .unbound (oks [0x27, 0x27, 0x27, 0x27]) with
      seq := some { Sequencer.fresh with step := .before enableText, prev := some .fault, faults := 2 } } :=
  ⟨test_constantTurns (by decide) rfl, test_constantTurns (by decide) rfl, test_constantTurns (by decide) rfl,
    test_constantTurns (by decide) rfl, test_constantTurns (by decide) rfl, .inl ⟨rfl, rfl⟩,
    .inr ⟨_, rfl, rfl, by decide, by decide⟩⟩

/-- EN-F3: three turns that show Fault. -/
theorem test_witness_FaultResetRetries :
    (∀ q ∈ List.replicate 3 ((8, 0, 0, 0, 0) : DWord × DWord × DWord × DWord × DWord),
      stateShown (issued .unbound []) q.1 = some .fault) ∧
    (List.replicate 3 ((8, 0, 0, 0, 0) : DWord × DWord × DWord × DWord × DWord)).length =
      (issued .unbound []).params.faultResetRetries + 1 ∧
    Meets .unbound
      ((List.replicate 3 ((8, 0, 0, 0, 0) : DWord × DWord × DWord × DWord × DWord)).flatMap
        (fun q => answers [q.1, q.2.1, q.2.2.1, q.2.2.2.1, q.2.2.2.2]) ++ []) :=
  ⟨fun q hq => by rw [List.eq_of_mem_replicate hq]; decide, by decide, test_meets _ _⟩

/-- EN-OSC: no turn and one. -/
theorem test_witness_EnableHangs :
    stateShown (issued .unbound []) 0x40 = some .switchedOnDisabled ∧
    stateShown (issued .unbound []) 0x21 = some .readyToSwitchOn ∧
    Meets .unbound ((List.replicate 0 (answers [0x40, 0, 0, 0x21, 0, 0])).flatten ++ []) ∧
    Meets .unbound ((List.replicate 1 (answers [0x40, 0, 0, 0x21, 0, 0])).flatten ++ []) :=
  ⟨by decide, by decide, test_meets _ _, test_meets _ _⟩

/-- A state with a micro-op, a state with none, NotReadyToSwitchOn, and no state. -/
theorem test_witness_ShutdownRuns :
    (stateShown (issued .unbound []) 0x27 = some .operationEnabled ∧ shutdownOps .operationEnabled = some [.shutdown] ∧
      CwRun (issued .unbound []) [.shutdown] (oks [0, 0]) (cwEvents (issued .unbound []) .shutdown 0 ++ []) ∧
      Meets .unbound (.ok 0x27 :: (oks [0, 0] ++ []))) ∧
    (stateShown (issued .unbound []) 0x21 = some .readyToSwitchOn ∧ shutdownOps .readyToSwitchOn = some [] ∧
      CwRun (issued .unbound []) [] [] [] ∧ Meets .unbound (.ok 0x21 :: ([] ++ []))) ∧
    (stateShown (issued .unbound []) 0 = some .notReadyToSwitchOn ∧ Meets .unbound (oks [0])) ∧
    stateShown (issued .unbound []) 0x48 = none ∧ Meets .unbound (oks [0x48]) :=
  ⟨⟨by decide, rfl, test_cwRun _ _ (by decide), test_meets _ _⟩, ⟨by decide, rfl, .nil, test_meets _ _⟩,
    ⟨by decide, test_meets _ _⟩, by decide, test_meets _ _⟩

theorem test_witness_QuickStopRuns :
    (stateShown (issued .unbound []) 0x27 = some .operationEnabled ∧
      CwRun (issued .unbound []) (quickStopOps .operationEnabled) (oks [0, 0])
        (cwEvents (issued .unbound []) .quickStop 0 ++ []) ∧
      Meets .unbound (.ok 0x27 :: (oks [0, 0] ++ oks [0x07]))) ∧
    (stateShown (issued .unbound []) 0x23 = some .switchedOn ∧
      CwRun (issued .unbound []) (quickStopOps .switchedOn) [] [] ∧ Meets .unbound (.ok 0x23 :: ([] ++ oks [0x23]))) ∧
    stateShown (issued .unbound []) 0x48 = none ∧ Meets .unbound (oks [0x48]) :=
  ⟨⟨by decide, test_cwRun _ _ (by decide), test_meets _ _⟩, ⟨by decide, .nil, test_meets _ _⟩, by decide,
    test_meets _ _⟩

theorem test_witness_ModeHalts :
    (Ctrl.profilePosition, CwOp.haltSet) ∈ [(Ctrl.homing, CwOp.startClear), (.profilePosition, .haltSet)] ∧
    Meets .homing (oks [0, 0]) ∧ Meets .profilePosition (.error 1 :: []) ∧
    Meets .profilePosition (.ok 0 :: .error 1 :: []) :=
  ⟨by decide, test_meets _ _, test_meets _ _, test_meets _ _⟩

/-- Modes at the ends of the accepted ones, and beside them. -/
theorem test_witness_BaseHaltRuns :
    Ctrl.autoSetup ∈ [Ctrl.unbound, .velocity, .autoSetup] ∧
    ((readValue State.reset .mode 1).setWidth 8).toInt ∈ ([1, 2, 3, 4, 7] : List Int) ∧
    ((readValue State.reset .mode 7).setWidth 8).toInt ∈ ([1, 2, 3, 4, 7] : List Int) ∧
    Meets .autoSetup (oks [7, 0, 0, 0]) ∧
    ((readValue State.reset .mode 0).setWidth 8).toInt ∉ ([1, 2, 3, 4, 7] : List Int) ∧
    ((readValue State.reset .mode 6).setWidth 8).toInt ∉ ([1, 2, 3, 4, 7] : List Int) ∧
    Meets .autoSetup (oks [6]) :=
  ⟨by decide, by decide, by decide, test_meets _ _, by decide, by decide, test_meets _ _⟩

/-- START_HOMING with no run in flight, on a drive that is enabled already. -/
theorem test_startHomingRun (b : List Answer) :
    StartHomingRun (issued .homing b) (.ok 0x427 :: ([] ++ .ok 0 :: .ok 0 :: .ok 0 :: oks [0x27, 0x27]))
      (readEvent (issued .homing b) .sw 0x427 :: ([] ++
        writeEvent (issued .homing b) .lswOption (issued .homing b).params.lswOptRecordOnly ::
        (cwEvents (issued .homing b) .startSet 0 ++
          [readEvent (issued .homing b) .sw 0x27, readEvent (issued .homing b) .sw 0x27]))) none :=
  have h : decodeHoming (word16 (readValue (issued .homing b) .sw 0x427)) = some .incomplete := by
    show decodeHoming (word16 (readValue State.reset .sw 0x427)) = _
    decide
  .run 0x427 0 0 0 .incomplete [] (oks [0x27, 0x27]) [] _ _ h .nil (test_meetsOn .homing b 0).2.2.2.2

/-- Both commands, and the speeds where HOME's clauses meet. -/
theorem test_witness_HomingStarts :
    Meets .homing ((.ok 0x427 :: ([] ++ .ok 0 :: .ok 0 :: .ok 0 :: oks [0x27, 0x27])) ++ []) ∧
    Meets .homing
      (.ok 0 :: .ok 0 :: .ok 0 :: ((.ok 0x427 :: ([] ++ .ok 0 :: .ok 0 :: .ok 0 :: oks [0x27, 0x27])) ++ [])) ∧
    (49 : Word).toNat < (50 : Word).toNat ∧ (50 : Word).toNat ≤ (50 : Word).toNat :=
  ⟨test_meets _ _, test_meets _ _, by decide, by decide⟩

theorem test_witness_SetTargetPositionRuns :
    Meets .profilePosition (oks [0x1F, 0, 0, 0]) := test_meets _ _

theorem test_witness_MotionStarts :
    MeetsOn .profilePosition (.ok 0 :: .ok 0 :: (oks [0x27, 0x27] ++ [])) ∧
    MeetsOn .velocity (.ok 0 :: .ok 0 :: .ok 0 :: (oks [0x27, 0x27] ++ [])) := ⟨test_meetsOn _ _ _, test_meetsOn _ _ _⟩

/-- The precondition violated and not; a loop that fails; a poll that ends at the first read, at the last, and never. -/
theorem test_witness_AutoSetupRuns :
    (precondViolated State.reset.params (statusWord State.reset 0x221) = true ∧ Meets .autoSetup (oks [0x221])) ∧
    precondViolated State.reset.params (statusWord State.reset 0x27) = false ∧
    MeetsLost .autoSetup (.ok 0x27 :: (oks [0x48] ++ [])) ∧
    (∀ z ∈ List.replicate 3000 (0x27 : DWord), (statusWord State.reset z).getLsbD 12 = false) ∧
    (statusWord State.reset 0x1027).getLsbD 12 = true ∧
    (List.replicate 2999 (0x27 : DWord)).length < State.reset.params.autoSetupPollMax ∧
    (List.replicate 3000 (0x27 : DWord)).length = State.reset.params.autoSetupPollMax ∧
    MeetsOn .autoSetup (oks [0x27] ++ (oks [0x27, 0x27] ++ (oks [0, 0] ++
      (answers (List.replicate 2999 0x27) ++ oks [0x1027, 0])))) ((List.replicate 2999 (0x27 : DWord)).length + 0) ∧
    MeetsOn .autoSetup (oks [0x27] ++ (oks [0x27, 0x27] ++ (oks [0, 0] ++
      (answers (List.replicate 3000 0x27) ++ [])))) ((List.replicate 3000 (0x27 : DWord)).length + 0) :=
  ⟨⟨rfl, test_meets _ _⟩, rfl, test_meetsLost _ _,
    fun z hz => by rw [List.eq_of_mem_replicate hz]; rfl, rfl,
    by rw [List.length_replicate]; exact Nat.lt_succ_self 2999, by rw [List.length_replicate]; rfl,
    test_meetsOn _ _ _, test_meetsOn _ _ _⟩

/-- Under each sense, at the words beside the three bits. -/
theorem test_autoSetup_precondition :
    defaultParams.autoSetupPrecondSense = .failWhenAllSet ∧ precondViolated defaultParams 0x0221 = true ∧
    precondViolated defaultParams 0xFDFF = false ∧
    precondViolated { defaultParams with autoSetupPrecondSense := .failUnlessAllSet } 0x0221 = false ∧
    precondViolated { defaultParams with autoSetupPrecondSense := .failUnlessAllSet } 0xFDFF = true := by decide

/-- Both clauses. -/
theorem test_witness_MicroOpActions :
    (running .unbound (cwText .startSet) 0 (oks [0, 0])).seq =
      some { Sequencer.fresh with step := .before (.act (.cwRead .startSet) :: .act (.cwWrite .startSet) :: []) } ∧
    (running .unbound (cwText .startSet) 0 (oks [0, 0])).bus = oks [0, 0] ∧
    (running .unbound (cwText .clearAll) 0 (oks [0])).seq =
      some { Sequencer.fresh with step := .before (.act (.cwWrite .clearAll) :: []) } ∧
    (running .unbound (cwText .clearAll) 0 (oks [0])).bus = oks [0] := by decide

/-- Just issued, a BIND_* and another command; and under way, with a binding and without. -/
theorem test_witness_IoErrorEndsTheCommand :
    (∃ t, exec .currentState (issued .homing [.error 5]) = .next t ∧ t.bus = [] ∧ t.ctrl = .homing) ∧
    (∃ t, exec .bindVelocity (issued .homing [.error 5]) = .next t ∧ t.bus = [] ∧ t.ctrl = .unbound) ∧
    (∃ t, exec .shutdown (running .homing [.act (.read .sw)] 0 [.error 5]) = .next t ∧ t.bus = [] ∧
      t.ctrl = .homing) ∧
    ∃ u t, exec .bindVelocity (issued .homing [.ok 1, .error 5]) = .next u ∧ (u.seq.bind (·.bind)).isSome = true ∧
      exec .bindVelocity u = .next t ∧ t.bus = [] ∧ t.ctrl = .unbound :=
  ⟨⟨_, rfl, rfl, rfl⟩, ⟨_, rfl, rfl, rfl⟩, ⟨_, rfl, rfl, rfl⟩, _, _, rfl, rfl, rfl, rfl, rfl⟩

/-- A step that goes on, one that ends in an I/O error, and one that ends in a protocol error. -/
theorem test_witness_ResultsOnlyAtTheEnd :
    (∃ t, exec .currentState (issued .unbound (oks [0x27])) = .next t ∧ t.seq.isSome = true) ∧
    (∃ t, exec .currentState (issued .unbound [.error 5]) = .next t ∧ (issued .unbound [.error 5]).seq.isSome = true ∧
      t.seq = none) ∧
    ∃ t, exec .currentState (running .unbound [.test .currentStateResult] 0x48 []) = .next t ∧ t.seq = none ∧
      t.status ≠ 0x00 ∧ t.status ≠ 0x01 :=
  ⟨⟨_, rfl, rfl⟩, ⟨_, rfl, rfl, rfl⟩, ⟨_, rfl, rfl, by decide, by decide⟩⟩

/-- A step with no event, one with an access, one with a wait. -/
theorem test_witness_OneActionPerStep :
    (∃ t, exec .unbind (issued .velocity []) = .next t ∧ t.trace = []) ∧
    (∃ t, exec .halt (issued .homing (oks [3])) = .next t ∧ t.trace.length = 1) ∧
    ∃ t, exec (.saveGroup 1) { running .unbound [.act (.wait 100)] 0 [] with timer := 1 } = .next t ∧
      t.trace = [.wait 100] := ⟨⟨_, rfl, rfl⟩, ⟨_, rfl, rfl⟩, ⟨_, rfl, rfl⟩⟩

/-- Its two cases. -/
theorem test_witness_CoreNeverStops :
    CtrlInv State.reset ∧ { State.reset with completed := true }.completed = true ∧
    ∀ m rest, State.reset.host = m :: rest → m ≠ .readStatus ∧ ∀ k, m ≠ .readRes k := by
  refine ⟨⟨trivial, ?_⟩, rfl, ?_⟩
  · rintro q ⟨⟩
  · rintro m rest ⟨⟩

/-- A BIND_HOMING just issued, and its first step, after which the sequencer carries the binding. -/
theorem test_witness_OnlyBindWritesCtrl :
    (∀ q, { issued .unbound (oks [6]) with opc := 0x30 }.seq = some q → q.bind.isSome = true →
      0x30 ≤ (0x30 : Byte).toNat ∧ (0x30 : Byte).toNat ≤ 0x34) ∧
    { issued .unbound (oks [6]) with opc := 0x30 }.seq.isSome = true ∧
    ∃ t, step { issued .unbound (oks [6]) with opc := 0x30 } = .next t ∧ (t.seq.bind (·.bind)).isSome = true := by
  refine ⟨?_, rfl, _, rfl, rfl⟩
  rintro q ⟨⟩
  decide

/-- The invariants hold in a state with a command in flight, and a step leaves it. -/
theorem test_witness_CoreInvariantsKept :
    HandshakeInv (issued .homing (oks [0x27])) ∧ CtrlInv (issued .homing (oks [0x27])) ∧
    StatusInv (issued .homing (oks [0x27])) ∧
    ∃ t, step { issued .homing (oks [0x27]) with opc := 0x45 } = .next t ∧ t.port = .busy := by
  refine ⟨by simp [HandshakeInv, issued], ⟨trivial, ?_⟩, .inl rfl, _, rfl, rfl⟩
  rintro q ⟨⟩ c ⟨⟩

theorem test_witness_TextAndTraceLegal :
    TextInv { issued .homing (oks [0x27]) with opc := 0x45 } ∧ TraceInv { issued .homing (oks [0x27]) with opc := 0x45 } ∧
    ∃ t, step { issued .homing (oks [0x27]) with opc := 0x45 } = .next t ∧ t.trace.length = 1 := by
  refine ⟨?_, by simp [TraceInv, issued, State.reset], _, rfl, rfl⟩
  rintro q ⟨⟩
  exact ⟨by simp [Sequencer.todo, Sequencer.fresh], Nat.zero_le _⟩

/-- A step that records a write, from a legal text. -/
theorem test_witness_StatusWordNeverWritten :
    TextInv (running .homing [.act (.write .homingAccel 5)] 0 (oks [0])) ∧
    ∃ t, step { running .homing [.act (.write .homingAccel 5)] 0 (oks [0]) with opc := 0x42 } = .next t ∧
      t.trace = [.write 0 ⟨0x609A, 0⟩ .w32 5] := by
  refine ⟨?_, _, rfl, rfl⟩
  rintro q ⟨⟩
  exact ⟨by simp [Sequencer.todo, Stmt.Legal, Act.Legal, coreWrites], Nat.zero_le _⟩

end Sys2Proof.Tests
end

section
/-! The statements of the scope family: what a read returns, one action a step, an I/O error's end, and the agreement
of the machine's steps with the latched command's own actions. -/

namespace Sys2Proof.Machine

/-! ## Register reads (R16, R73) -/

theorem narrow_w8_signed (a : OdAddr) (x : DWord) : narrow ⟨a, .w8, true⟩ x = (x.setWidth 8).signExtend 32 := rfl

theorem narrow_w16_signed (a : OdAddr) (x : DWord) : narrow ⟨a, .w16, true⟩ x = (x.setWidth 16).signExtend 32 := rfl

theorem narrow_w8_unsigned (a : OdAddr) (x : DWord) : narrow ⟨a, .w8, false⟩ x = (x.setWidth 8).setWidth 32 := rfl

theorem narrow_w16_unsigned (a : OdAddr) (x : DWord) : narrow ⟨a, .w16, false⟩ x = (x.setWidth 16).setWidth 32 := rfl

/-- At 32 bits nothing is extended, so signedness does not matter. -/
theorem narrow_w32 (a : OdAddr) (signed : Bool) (x : DWord) : narrow ⟨a, .w32, signed⟩ x = x.setWidth 32 := by
  cases signed <;> rfl

/-- Settles O11, width by width: an extension to 32 bits keeps the value of the low bits. -/
theorem readsAreNarrowed : Obligations.ReadsAreNarrowed := by
  intro a x
  refine ⟨?_, ?_, ?_, ?_, ?_, ?_⟩
  · rw [narrow_w8_signed, BitVec.toInt_signExtend_of_le (by decide)]
  · rw [narrow_w16_signed, BitVec.toInt_signExtend_of_le (by decide)]
  · rw [narrow_w32]
  · rw [narrow_w8_unsigned, BitVec.toNat_setWidth_of_le (by decide), BitVec.toNat_setWidth]
  · rw [narrow_w16_unsigned, BitVec.toNat_setWidth_of_le (by decide), BitVec.toNat_setWidth]
  · rw [narrow_w32, BitVec.toNat_setWidth]

/-! ## What one action records and uses (R16, R17, R81) -/

/-- From `s` to `t` at most one action was made: nothing recorded and nothing used, or one access with its answer, or
one wait with its timer report. -/
def OneAction (s t : State) : Prop :=
  (t.trace = s.trace ∧ t.bus = s.bus ∧ t.timer = s.timer) ∨
  (∃ (a : Answer) (ev : Event), s.bus = a :: t.bus ∧ t.timer = s.timer ∧ t.trace = s.trace ++ [ev] ∧
    ∀ ms, ev ≠ .wait ms) ∨
  ∃ ms, t.bus = s.bus ∧ s.timer = t.timer + 1 ∧ t.trace = s.trace ++ [.wait ms]

theorem OneAction.refl (s : State) : OneAction s s := .inl ⟨rfl, rfl, rfl⟩

theorem oneAction_returnOk (q : Sequencer) (s : State) : OneAction s (returnOk q s) := .inl ⟨rfl, rfl, rfl⟩

theorem oneAction_raise (e : Raise) (q : Sequencer) (s : State) : OneAction s (raise e q s) := .inl ⟨rfl, rfl, rfl⟩

theorem memRead_oneAction {r : RegName} {rest : List Stmt} {q : Sequencer} {s t : State}
    (h : memRead r rest q s = .next t) : OneAction s t := by
  rcases memRead_cases h with ⟨_, rfl⟩ | ⟨x, more, hb, rfl⟩ | ⟨e, more, hb, rfl⟩
  · exact .refl t
  · exact .inr (.inl ⟨_, _, hb, rfl, rfl, nofun⟩)
  · exact .inr (.inl ⟨_, _, hb, rfl, rfl, nofun⟩)

theorem memWrite_oneAction {r : RegName} {x : Word} {rest : List Stmt} {q : Sequencer} {s t : State}
    (h : memWrite r x rest q s = .next t) : OneAction s t := by
  rcases memWrite_cases h with ⟨_, rfl⟩ | ⟨y, more, hb, rfl⟩ | ⟨e, more, hb, rfl⟩
  · exact .refl t
  · exact .inr (.inl ⟨_, _, hb, rfl, rfl, nofun⟩)
  · exact .inr (.inl ⟨_, _, hb, rfl, rfl, nofun⟩)

theorem waitMs_oneAction {ms : Nat} {rest : List Stmt} {q : Sequencer} {s t : State}
    (h : waitMs ms rest q s = .next t) : OneAction s t := by
  rcases waitMs_cases h with ⟨_, rfl⟩ | ⟨left, ht, rfl⟩
  · exact .refl t
  · exact .inr (.inr ⟨ms, rfl, ht, rfl⟩)

theorem perform_oneAction {a : Act} {rest : List Stmt} {q : Sequencer} {s t : State}
    (h : perform a rest q s = .next t) : OneAction s t := by
  cases a with
  | read r => exact memRead_oneAction h
  | cwRead op => exact memRead_oneAction h
  | write r x => exact memWrite_oneAction h
  | writeWorking r => exact memWrite_oneAction h
  | cwWrite op => exact memWrite_oneAction h
  | wait ms => exact waitMs_oneAction h

theorem exec_oneAction {i : Instr} {s t : State} (h : exec i s = .next t) : OneAction s t :=
  exec_elim h (fun q e => e ▸ oneAction_returnOk q s) (fun e q he => he ▸ oneAction_raise (.protocol e) q s)
    fun _ _ _ hp => perform_oneAction hp

/-- From `s` to `t` the constants, the latched frame and the host's moves stayed (R32, R33, R394). -/
def KeepsConstants (s t : State) : Prop :=
  t.params = s.params ∧ t.dev = s.dev ∧ t.opc = s.opc ∧ t.arg = s.arg ∧ t.host = s.host ∧ t.hostSeen = s.hostSeen

theorem exec_keepsConstants {i : Instr} {s t : State} (h : exec i s = .next t) : KeepsConstants s t := by
  apply exec_elim h
  · rintro q rfl; simp [KeepsConstants]
  · rintro e q rfl; simp [KeepsConstants]
  · intro a rest q hp; exact perform_frame hp

/-- Settles O54: a step is the end of its command or one action, and each leaves the constants. -/
theorem oneActionPerStep : Obligations.OneActionPerStep :=
  fun _ _ _ h => ⟨exec_oneAction h, exec_keepsConstants h⟩

/-! ## A failed access (R16, R352, R355) -/

/-- `t` is the end of the command in `s` by the failed access that was answered with `e`, with binding `b`. -/
def IoEnd (s : State) (e : Word) (more : List Answer) (b : Option Ctrl) (t : State) : Prop :=
  ∃ ev, t = failed s more s.timer [ev] 0x01 (s.res.set 0 e) (if b.isSome then .unbound else s.ctrl) ∧
    ((∃ a w, ev = .readFailed s.dev a w) ∨ ∃ a w v, ev = .writeFailed s.dev a w v)

theorem memRead_ioEnd {r : RegName} {rest : List Stmt} {q : Sequencer} {s t : State} {e : Word} {more : List Answer}
    (hb : s.bus = .error e :: more) (h : memRead r rest q s = .next t) : IoEnd s e more q.bind t := by
  rw [memRead_error hb] at h
  obtain rfl := Host.Outcome.next.inj h
  exact ⟨readFailedEvent s r, rfl, .inl ⟨_, _, rfl⟩⟩

theorem memWrite_ioEnd {r : RegName} {x : Word} {rest : List Stmt} {q : Sequencer} {s t : State} {e : Word}
    {more : List Answer} (hb : s.bus = .error e :: more) (h : memWrite r x rest q s = .next t) :
    IoEnd s e more q.bind t := by
  rw [memWrite_error hb] at h
  obtain rfl := Host.Outcome.next.inj h
  exact ⟨writeFailedEvent s r x, rfl, .inr ⟨_, _, _, rfl⟩⟩

theorem waitMs_bus {ms : Nat} {rest : List Stmt} {q : Sequencer} {s t : State} (h : waitMs ms rest q s = .next t) :
    t.bus = s.bus := by
  rcases waitMs_cases h with ⟨_, rfl⟩ | ⟨_, _, rfl⟩
  · rfl
  · simp

/-- An action that finds an error as the next answer is a wait, or ends the command with it. -/
theorem perform_ioEnd {a : Act} {rest : List Stmt} {q : Sequencer} {s t : State} {e : Word} {more : List Answer}
    (hb : s.bus = .error e :: more) (h : perform a rest q s = .next t) : t.bus = s.bus ∨ IoEnd s e more q.bind t := by
  cases a with
  | read r => exact .inr (memRead_ioEnd hb h)
  | cwRead op => exact .inr (memRead_ioEnd hb h)
  | write r x => exact .inr (memWrite_ioEnd hb h)
  | writeWorking r => exact .inr (memWrite_ioEnd hb h)
  | cwWrite op => exact .inr (memWrite_ioEnd hb h)
  | wait ms => exact .inl (waitMs_bus h)

/-- A step before a text that finds an error as the next answer makes no access, or ends the command with it and with
the binding that the sequencer carries. -/
theorem advance_ioEnd {todo : List Stmt} {q : Sequencer} {s t : State} {e : Word} {more : List Answer}
    (hb : s.bus = .error e :: more) (h : advance todo q s = .next t) : t.bus = s.bus ∨ IoEnd s e more q.bind t := by
  apply advance_elim_bind todo q h
  · rintro q' _ rfl; exact .inl (returnOk_bus q' s)
  · rintro e' q' _ rfl; exact .inl (raise_bus (.protocol e') q' s)
  · intro a rest q' hq' hp
    rw [← hq']
    exact perform_ioEnd hb hp

/-! ## A command's first step (R105, R228, R229) -/

/-- What the end of a command just issued will write to `CTRL`: a BIND_* its controller, UNBIND none. -/
def issueBinding : Instr → Option Ctrl
  | .bindHoming => some .homing
  | .bindProfilePosition => some .profilePosition
  | .bindVelocity => some .velocity
  | .bindAutoSetup => some .autoSetup
  | .unbind => some .unbound
  | _ => none

theorem issueBinding_isSome_iff (i : Instr) : (issueBinding i).isSome = true ↔
    i ∈ [.bindHoming, .bindProfilePosition, .bindVelocity, .bindAutoSetup] ∨ i = .unbind := by
  cases i <;> simp [issueBinding]

/-- Every instruction is a micro-op, or a command with a gate, its binding and a text. -/
theorem exec_cases (i : Instr) (s : State) :
    (issueBinding i = none ∧ ∃ op, exec i s = runMicroOp op s) ∨
    ∃ g text, exec i s = runCommand g (issueBinding i) text s := by
  cases i with
  | cwShutdown | cwSwitchOn | cwEnableOperation | cwDisableOperation | cwDisableVoltage | cwQuickStop | cwQsRecover1
  | cwFaultResetLow | cwFaultResetHigh | cwStartSet | cwStartClear | cwHaltSet | cwHaltClear | cwPpTargetAbs
  | cwPpTargetRel | cwPpStart | cwClearAll => exact .inl ⟨rfl, _, rfl⟩
  | bindHoming | bindProfilePosition | bindVelocity | bindAutoSetup => exact .inr ⟨.any, _, rfl⟩
  | _ =>
    right
    simp only [exec]
    exact ⟨_, _, rfl⟩

/-- The first step of an instruction just issued runs a text with fresh temporaries and its binding, ends with a
protocol error, or stops at a `CTRL` never held. -/
theorem exec_issued_forms (i : Instr) {s : State} (hs : s.seq = some .fresh) :
    (∃ todo, exec i s = advance todo { Sequencer.fresh with bind := issueBinding i } s) ∨
    (∃ e q, exec i s = .next (raise (.protocol e) q s)) ∨ ∃ f, exec i s = .fault f := by
  rcases exec_cases i s with ⟨hb, op, hi⟩ | ⟨g, text, hi⟩
  · left
    rw [hi, hb, runMicroOp, hs]
    exact ⟨_, rfl⟩
  · rw [hi]
    cases hg : gateCheck g s.ctrl with
    | allowed => exact .inl ⟨_, runCommand_issued hs hg⟩
    | illegal => exact .inr (.inl ⟨_, _, runCommand_illegal hs hg⟩)
    | ctrlNeverHeld =>
      rcases runCommand_cases g (issueBinding i) text s with ⟨t, ht⟩ | ⟨_, hf⟩
      · simp [runCommand, hs, hg, Sequencer.fresh] at ht
      · exact .inr (.inr ⟨_, hf⟩)

/-- UNBIND just issued makes no access (R229). -/
theorem exec_unbind_issued {s : State} (hs : s.seq = some .fresh) :
    exec .unbind s = .next (returnOk { Sequencer.fresh with bind := some .unbound } s) :=
  runCommand_issued hs (gateCheck_any _)

/-! ## The end by an I/O error (R16, R228, R352) -/

/-- A command under way ends by an I/O error with the binding that its sequencer carries. -/
theorem exec_running_ioEnd {i : Instr} {s t : State} {q : Sequencer} {todo : List Stmt} {e : Word} {more : List Answer}
    (hq : s.seq = some q) (ht : q.step = .before todo) (hb : s.bus = .error e :: more) (h : exec i s = .next t) :
    t.bus = s.bus ∨ IoEnd s e more q.bind t := by
  obtain ⟨todo', ha⟩ := exec_running i hq ht
  exact advance_ioEnd hb (ha ▸ h)

/-- A command just issued ends by an I/O error with its own binding. -/
theorem exec_issued_ioEnd {i : Instr} {s t : State} {e : Word} {more : List Answer}
    (hs : s.seq = some .fresh) (hb : s.bus = .error e :: more) (h : exec i s = .next t) :
    t.bus = s.bus ∨ IoEnd s e more (issueBinding i) t := by
  rcases exec_issued_forms i hs with ⟨todo, ha⟩ | ⟨e', q, ha⟩ | ⟨f, ha⟩
  · exact advance_ioEnd hb (ha ▸ h)
  · obtain rfl := Host.Outcome.next.inj (ha ▸ h)
    exact .inl (raise_bus (.protocol e') q s)
  · simp [ha] at h

/-- Whatever the instruction, a step that finds an error as the next answer makes no access, or ends the command with
it; the binding that ends with it is the sequencer's, or the one the instruction just issued has. -/
theorem exec_ioEnd {i : Instr} {s t : State} {e : Word} {more : List Answer} (hb : s.bus = .error e :: more)
    (h : exec i s = .next t) : t.bus = s.bus ∨ ∃ b, IoEnd s e more b t ∧
      (∀ q todo, s.seq = some q → q.step = .before todo → b = q.bind) ∧ (Issued s → b = issueBinding i) := by
  by_cases hrun : ∃ q todo, s.seq = some q ∧ q.step = .before todo
  · obtain ⟨q, todo, hq, hstep⟩ := hrun
    refine (exec_running_ioEnd hq hstep hb h).imp_right fun hio => ⟨q.bind, hio, ?_, ?_⟩
    · rintro q' todo' hq' -
      rw [Option.some.inj (hq.symm.trans hq')]
    · rintro ⟨-, hfresh⟩
      obtain rfl := Option.some.inj (hq.symm.trans hfresh)
      cases hstep
  by_cases hs : Issued s
  · exact (exec_issued_ioEnd hs.2 hb h).imp_right fun hio =>
      ⟨_, hio, fun q todo hq hstep => absurd ⟨q, todo, hq, hstep⟩ hrun, fun _ => rfl⟩
  · apply exec_elim h
    · rintro q rfl; exact .inl (returnOk_bus q s)
    · rintro e' q rfl; exact .inl (raise_bus (.protocol e') q s)
    · intro a rest q hp
      exact (perform_ioEnd hb hp).imp_right fun hio =>
        ⟨_, hio, fun q todo hq hstep => absurd ⟨q, todo, hq, hstep⟩ hrun, fun hi => absurd hi hs⟩

/-- The failed access of a command that is no UNBIND leaves `CTRL` unbound exactly for a BIND_*. -/
theorem ctrl_of_issueBinding {i : Instr} (hi : i ≠ .unbind) (c : Ctrl) :
    (if (issueBinding i).isSome then .unbound else c) =
      if i ∈ [.bindHoming, .bindProfilePosition, .bindVelocity, .bindAutoSetup] then .unbound else c := by
  simp only [issueBinding_isSome_iff, hi, or_false]

/-- Settles O52 by `exec_ioEnd`; UNBIND just issued carries a binding and is no BIND_*, but makes no access. -/
theorem ioErrorEndsTheCommand : Obligations.IoErrorEndsTheCommand := by
  intro i s t e more hb h
  by_cases hu : Issued s ∧ i = .unbind
  · obtain ⟨⟨-, hs⟩, rfl⟩ := hu
    rw [exec_unbind_issued hs] at h
    obtain rfl := Host.Outcome.next.inj h
    exact .inl (returnOk_bus _ s)
  refine (exec_ioEnd hb h).imp_right ?_
  rintro ⟨b, ⟨ev, ht, hev⟩, hcarried, hissued⟩
  refine ⟨ev, _, ht, hev, (ite_eq_or_eq _ _ _).symm, ?_, ?_⟩
  · intro q todo hq hstep
    rw [hcarried q todo hq hstep]
  · intro hs
    rw [hissued hs]
    exact ctrl_of_issueBinding (fun hi => hu ⟨hs, hi⟩) s.ctrl

/-! ## The machine's steps and the latched command (R17, R36) -/

/-- A frame holds a command, never a micro-op. -/
theorem encode_of_decodeFrame {f : Frame} {i : Instr} (h : decodeFrame f = .ok i) : ∃ f', encode i = .command f' := by
  unfold decodeFrame at h
  split at h <;> cases h <;> exact ⟨_, rfl⟩

@[simp] theorem exec_microOp_instr (op : CwOp) (s : State) : exec op.instr s = runMicroOp op s := by
  cases op <;> rfl

/-- A text that begins with an action of a micro-op is the micro-op's own text. -/
theorem microOpText_of_head {todo : List Stmt} {op : CwOp} (h : headMicroOp todo = some op) :
    microOpText op todo = todo := by
  unfold headMicroOp at h
  split at h
  · obtain rfl := Option.some.inj h
    simp [microOpText]
  · obtain rfl := Option.some.inj h
    simp [microOpText]
  · cases h

/-- The command `i` is latched and running, just issued or before the rest of its text, and the host has no move. -/
def Latched (i : Instr) (s : State) : Prop :=
  decodeFrame s.frame = .ok i ∧ s.host = [] ∧ s.port = .busy ∧
    (s.seq = some .fresh ∨ ∃ q todo, s.seq = some q ∧ q.step = .before todo)

/-- A BUSY core with no micro-op next runs the latched command. -/
theorem coreStep_of_noMicroOp {i : Instr} {s : State} (hd : decodeFrame s.frame = .ok i)
    (hh : headMicroOp (s.seq.getD .fresh).todo = none) : coreStep s = exec i s := by
  simp [coreStep, current, hh, hd, Except.toOption]

/-- A BUSY core with a micro-op next runs the micro-op, which is the next action of the sequencer's text. -/
theorem coreStep_of_microOp {s : State} {q : Sequencer} {todo : List Stmt} {op : CwOp} (hq : s.seq = some q)
    (ht : q.step = .before todo) (hh : headMicroOp todo = some op) : coreStep s = advance todo q s := by
  simp [coreStep, current, hq, Sequencer.todo, ht, hh, runMicroOp, microOpText_of_head hh]

/-- A machine step of a latched command is the command's own action. -/
theorem Latched.step_eq_exec {i : Instr} {s : State} (hl : Latched i s) : step s = exec i s := by
  obtain ⟨hd, hhost, hport, hseq⟩ := hl
  have hcore : step s = coreStep s := by simp [step, machineStep, hhost, coreTurn, hport]
  rw [hcore]
  rcases hseq with hq | ⟨q, todo, hq, ht⟩
  · exact coreStep_of_noMicroOp hd (by rw [hq]; rfl)
  · cases hh : headMicroOp todo with
    | none => exact coreStep_of_noMicroOp hd (by simpa [hq, Sequencer.todo, ht] using hh)
    | some op =>
      obtain ⟨f, hc⟩ := encode_of_decodeFrame hd
      rw [coreStep_of_microOp hq ht hh, exec_before hc hq ht]

/-- After an action the command has ended, or is before the rest of its text; or it still waits for the action. -/
theorem perform_seq {a : Act} {rest : List Stmt} {q : Sequencer} {s t : State} (h : perform a rest q s = .next t) :
    t = s ∨ t.port = .idle ∨ (t.port = s.port ∧ ∃ q', t.seq = some q' ∧ q'.step = .before rest) := by
  cases a with
  | wait ms =>
    rcases waitMs_cases h with ⟨_, rfl⟩ | ⟨_, _, rfl⟩
    · exact .inl rfl
    · exact .inr (.inr ⟨rfl, _, rfl, rfl⟩)
  | read | cwRead =>
    rcases memRead_cases h with ⟨_, rfl⟩ | ⟨_, _, _, rfl⟩ | ⟨_, _, _, rfl⟩
    · exact .inl rfl
    · exact .inr (.inr ⟨rfl, _, rfl, rfl⟩)
    · exact .inr (.inl rfl)
  | write | writeWorking | cwWrite =>
    rcases memWrite_cases h with ⟨_, rfl⟩ | ⟨_, _, _, rfl⟩ | ⟨_, _, _, rfl⟩
    · exact .inl rfl
    · exact .inr (.inr ⟨rfl, _, rfl, rfl⟩)
    · exact .inr (.inl rfl)

/-- A step that leaves the core BUSY waited, or left a command under way. -/
theorem exec_busy {i : Instr} {s t : State} (h : exec i s = .next t) (ht : t.port = .busy) :
    t = s ∨ (t.port = s.port ∧ ∃ q todo, t.seq = some q ∧ q.step = .before todo) := by
  revert ht
  apply exec_elim h
  · rintro q rfl hbusy; cases hbusy
  · rintro e q rfl hbusy; cases hbusy
  · intro a rest q hp hbusy
    rcases perform_seq hp with rfl | hidle | ⟨hport, q', hq', hstep⟩
    · exact .inl rfl
    · simp [hidle] at hbusy
    · exact .inr ⟨hport, q', rest, hq', hstep⟩

/-- A command that stays BUSY stays latched. -/
theorem Latched.of_exec {i : Instr} {s t : State} (hl : Latched i s) (h : exec i s = .next t) (ht : t.port = .busy) :
    Latched i t := by
  rcases exec_busy h ht with rfl | ⟨_, hseq⟩
  · exact hl
  · obtain ⟨hd, hhost, _, _⟩ := hl
    obtain ⟨_, _, hopc, harg, hhost', _⟩ := exec_keepsConstants h
    have hframe : t.frame = s.frame := by simp [State.frame, hopc, harg]
    exact ⟨hframe ▸ hd, hhost'.trans hhost, ht, .inr hseq⟩

theorem runExec_succ {i : Instr} {n : Nat} {s u : State} (h : exec i s = .next u) :
    runExec i (n + 1) s = runExec i n u := by
  simp [runExec, h]

theorem runSteps_succ {n : Nat} {s u : State} (h : step s = .next u) : runSteps (n + 1) s = runSteps n u := by
  simp [runSteps, h]

/-- A run of at least one action begins with one. -/
theorem runExec_succ_inv {i : Instr} {n : Nat} {s t : State} (h : runExec i (n + 1) s = .next t) :
    ∃ u, exec i s = .next u ∧ runExec i n u = .next t := by
  cases hu : exec i s with
  | next u => exact ⟨u, rfl, runExec_succ hu ▸ h⟩
  | fault f => simp [runExec, hu] at h
  | refused r => simp [runExec, hu] at h

/-- No action of a command makes an IDLE core BUSY: only an issue does (R35). -/
theorem busy_of_runExec_busy {i : Instr} {n : Nat} {s t : State} (h : runExec i n s = .next t)
    (ht : t.port = .busy) : s.port = .busy := by
  induction n generalizing s with
  | zero => exact Host.Outcome.next.inj h ▸ ht
  | succ n ih =>
    obtain ⟨u, hu, hrest⟩ := runExec_succ_inv h
    have hbusy := ih hrest
    rcases exec_busy hu hbusy with rfl | ⟨hport, _⟩
    · exact hbusy
    · exact hport ▸ hbusy

/-- A latched command that is BUSY after `n` actions makes `n + 1` of them in `n + 1` machine steps. -/
theorem Latched.runSteps_eq_runExec {i : Instr} {n : Nat} {s t : State} (hl : Latched i s)
    (h : runExec i n s = .next t) (ht : t.port = .busy) : runSteps (n + 1) s = runExec i (n + 1) s := by
  induction n generalizing s with
  | zero => simp only [runSteps, runExec, hl.step_eq_exec]
  | succ n ih =>
    obtain ⟨u, hu, hrest⟩ := runExec_succ_inv h
    have hlu : Latched i u := hl.of_exec hu (busy_of_runExec_busy hrest ht)
    calc runSteps (n + 2) s
      _ = runSteps (n + 1) u := runSteps_succ (hl.step_eq_exec.trans hu)
      _ = runExec i (n + 1) u := ih hlu hrest
      _ = runExec i (n + 2) s := (runExec_succ hu).symm

/-- Settles O17, by induction on the number of actions, with `Latched` as the invariant. -/
theorem stepsRunTheLatchedCommand : Obligations.StepsRunTheLatchedCommand :=
  fun _ _ _ _ hd hs hhost h ht => Latched.runSteps_eq_runExec ⟨hd, hhost, hs.1, .inl hs.2⟩ h ht

end Sys2Proof.Machine
end

section
/-! The statements of the state family: what reset and the host's moves do, that a BUSY core's step is the next action of
a legal text with a known binding, and the invariants that this gives. -/

namespace Sys2Proof.Machine

/-! ## Reset and the host's moves (R32, R35, R50, R390) -/

/-- With no host move a BUSY core steps. -/
theorem step_of_busy {s : State} (hp : s.port = .busy) (hh : s.host = []) : step s = coreStep s := by
  simp [step, machineStep, hh, coreTurn, hp]

/-- A host that waits to issue lets a BUSY core step. -/
theorem step_of_issue_busy {s : State} {f : Frame} {rest : List HostMove} (hp : s.port = .busy)
    (hh : s.host = .issue f :: rest) : step s = coreStep s := by
  simp [step, machineStep, hh, hostTurn, hp]

/-- A host that waits for IDLE lets a BUSY core step. -/
theorem step_of_awaitIdle_busy {s : State} {rest : List HostMove} (hp : s.port = .busy)
    (hh : s.host = .awaitIdle :: rest) : step s = coreStep s := by
  simp [step, machineStep, hh, hostTurn, hp]

/-- A host that lets a BUSY core step has used that move up. -/
theorem step_of_pass_busy {s : State} {rest : List HostMove} (hp : s.port = .busy) (hh : s.host = .pass :: rest) :
    step s = coreStep { s with host := rest } := by
  simp [step, machineStep, hh, hostTurn, coreTurn, hp]

theorem step_of_idle {s : State} (hp : s.port = .idle) (hh : s.host = []) : step s = .next s := by
  simp [step, machineStep, hh, coreTurn, hp]

theorem step_of_issue_idle {s : State} {f : Frame} {rest : List HostMove} (hp : s.port = .idle)
    (hh : s.host = .issue f :: rest) : step s = .next (issue f { s with host := rest }) := by
  simp [step, machineStep, hh, hostTurn, hp]

theorem step_of_writePort {s : State} {f : Frame} {rest : List HostMove} (hh : s.host = .writePort f :: rest) :
    step s = .next (writePort f { s with host := rest }) := by
  simp [step, machineStep, hh, hostTurn]

theorem step_of_readStatus {s : State} {rest : List HostMove} (hh : s.host = .readStatus :: rest) :
    step s = hostRead (.status s.status) { s with host := rest } := by
  simp [step, machineStep, hh, hostTurn]

theorem step_of_readRes {s : State} {k : Fin 6} {rest : List HostMove} (hh : s.host = .readRes k :: rest) :
    step s = hostRead (.res k (s.res.get k)) { s with host := rest } := by
  simp [step, machineStep, hh, hostTurn]

theorem hostRead_of_completed {seen : HostSeen} {s : State} (h : s.completed = true) :
    hostRead seen s = .next { s with hostSeen := s.hostSeen ++ [seen] } := by
  simp [hostRead, h]

/-- A host read before the first completion is a fault (R50). -/
theorem hostRead_of_not_completed {seen : HostSeen} {s : State} (h : s.completed = false) :
    hostRead seen s = .fault .hostReadBeforeCompletion := by
  simp [hostRead, h]

theorem reset_handshakeInv : HandshakeInv State.reset := by simp [HandshakeInv, State.reset]

theorem reset_ctrlInv : CtrlInv State.reset := ⟨trivial, nofun⟩

theorem reset_textInv : TextInv State.reset := nofun

theorem reset_traceInv : TraceInv State.reset := nofun

theorem reset_statusInv : StatusInv State.reset := .inl rfl

/-- Settles O13, one lemma for each invariant. -/
theorem resetState : Obligations.ResetState :=
  ⟨⟨rfl, rfl, rfl⟩, rfl, rfl, reset_handshakeInv, reset_ctrlInv, reset_textInv, reset_traceInv, reset_statusInv,
    fun _ => step_of_idle⟩

/-- Settles O14 by the step that an issue to an IDLE core is. -/
theorem issueLatchesTheFrame : Obligations.IssueLatchesTheFrame :=
  ⟨rfl, rfl, rfl, fun _ _ _ => step_of_issue_idle⟩

/-- Settles O15, one case for each move and each state of the port or of `completed`. -/
theorem hostPortMoves : Obligations.HostPortMoves := by
  intro s f rest k
  refine ⟨?_, ?_, ?_, ?_, ?_, ?_⟩
  · intro hh hp; rw [step_of_writePort hh, writePort_busy f { s with host := rest } hp]
  · intro hh hp; rw [step_of_writePort hh, writePort_idle f { s with host := rest } hp]
  · intro hh hc; rw [step_of_readStatus hh, hostRead_of_not_completed (s := { s with host := rest }) hc]
  · intro hh hc; rw [step_of_readRes hh, hostRead_of_not_completed (s := { s with host := rest }) hc]
  · intro hh hc; rw [step_of_readStatus hh, hostRead_of_completed (s := { s with host := rest }) hc]
  · intro hh hc; rw [step_of_readRes hh, hostRead_of_completed (s := { s with host := rest }) hc]

theorem coreStep_of_current {s : State} {i : Instr} (hi : current s = some i) : coreStep s = exec i s := by
  simp [coreStep, hi]

/-- The instruction that the core stands at does not depend on the host's moves. -/
theorem current_with_host (s : State) (rest : List HostMove) : current { s with host := rest } = current s := rfl

/-- Settles O16: in each host situation the step is the core's, which is `exec` of the current instruction. -/
theorem stepRunsTheDecodedInstruction : Obligations.StepRunsTheDecodedInstruction := by
  intro s i hp hi
  refine ⟨?_, ?_, ?_, ?_⟩
  · intro hh; rw [step_of_busy hp hh, coreStep_of_current hi]
  · intro f rest hh; rw [step_of_issue_busy hp hh, coreStep_of_current hi]
  · intro rest hh; rw [step_of_awaitIdle_busy hp hh, coreStep_of_current hi]
  · intro rest hh
    rw [step_of_pass_busy hp hh, coreStep_of_current ((current_with_host s rest).trans hi)]

/-! ## What one step of the machine is -/

/-- From `s` to `t` the machine made one step: the host's move alone, or the core's step with the host's moves left. -/
inductive StepKind (s t : State) : Prop
  | hostOnly (host : List HostMove) (seen : List HostSeen) : t = { s with host := host, hostSeen := seen } →
      StepKind s t
  | portWritten (f : Frame) (host : List HostMove) : s.port = .idle →
      t = { s with host := host, opc := f.opc, arg := f.arg } → StepKind s t
  | issued (f : Frame) (host : List HostMove) : s.port = .idle → t = issue f { s with host := host } → StepKind s t
  | core (host : List HostMove) : s.port = .busy → coreStep { s with host := host } = .next t → StepKind s t

theorem stepKind_of_hostRead {s t : State} {seen : HostSeen} {rest : List HostMove}
    (h : hostRead seen { s with host := rest } = .next t) : StepKind s t := by
  unfold hostRead at h
  split at h
  · exact .hostOnly rest (s.hostSeen ++ [seen]) (Host.Outcome.next.inj h).symm
  · cases h

theorem stepKind_of_coreTurn {s t : State} {host : List HostMove}
    (h : coreTurn { s with host := host } = .next t) : StepKind s t := by
  unfold coreTurn at h
  split at h
  next hp => exact .core host hp h
  next => exact .hostOnly host s.hostSeen (Host.Outcome.next.inj h).symm

theorem port_idle_or_busy (s : State) : s.port = .idle ∨ s.port = .busy := by
  cases s.port <;> simp

theorem stepKind_of_writePort {s t : State} {f : Frame} {rest : List HostMove}
    (h : Host.Outcome.next (writePort f { s with host := rest }) = (.next t : Result)) : StepKind s t := by
  obtain rfl := Host.Outcome.next.inj h
  rcases port_idle_or_busy s with hp | hp
  · exact .portWritten f rest hp (writePort_idle f { s with host := rest } hp)
  · exact .hostOnly rest s.hostSeen (writePort_busy f { s with host := rest } hp)

/-- A step is one of these kinds, whatever the host's next move. -/
theorem stepKind_of_step {s t : State} (h : step s = .next t) : StepKind s t := by
  unfold step machineStep at h
  split at h
  next => exact stepKind_of_coreTurn (host := s.host) h
  next m rest hh =>
    cases m with
    | issue f =>
      simp only [hostTurn] at h
      split at h
      next hp => exact .core s.host hp h
      next hp => exact .issued f rest hp (Host.Outcome.next.inj h).symm
    | awaitIdle =>
      simp only [hostTurn] at h
      split at h
      next hp => exact .core s.host hp h
      next => exact .hostOnly rest s.hostSeen (Host.Outcome.next.inj h).symm
    | pass => exact stepKind_of_coreTurn h
    | writePort f => exact stepKind_of_writePort h
    | readStatus => exact stepKind_of_hostRead h
    | readRes k => exact stepKind_of_hostRead h

/-! ## Legal texts (R39 to R49, R140, R375) -/

/-- Every statement of the text is legal. -/
def LegalText (p : Params) (text : List Stmt) : Prop := ∀ st ∈ text, st.Legal p

@[simp] theorem legalText_nil (p : Params) : LegalText p [] := nofun

@[simp] theorem legalText_act (p : Params) (a : Act) (text : List Stmt) :
    LegalText p (.act a :: text) ↔ a.Legal p ∧ LegalText p text := by
  simp [LegalText, Stmt.Legal]

@[simp] theorem legalText_test (p : Params) (k : Test) (text : List Stmt) :
    LegalText p (.test k :: text) ↔ LegalText p text := by
  simp [LegalText, Stmt.Legal]

@[simp] theorem legalText_append (p : Params) (l m : List Stmt) :
    LegalText p (l ++ m) ↔ LegalText p l ∧ LegalText p m := by
  simp [LegalText, or_imp, forall_and]

@[simp] theorem legal_read_iff (p : Params) (r : RegName) :
    (Act.read r).Legal p ↔ coreReads r = true ∧ r ≠ .cw := Iff.rfl

@[simp] theorem legal_write_iff (p : Params) (r : RegName) (x : Word) :
    (Act.write r x).Legal p ↔ coreWrites r = true ∧ r ≠ .cw := Iff.rfl

@[simp] theorem legal_writeWorking_iff (p : Params) (r : RegName) :
    (Act.writeWorking r).Legal p ↔ r = .driveMode ∨ r = .posUnits ∨ r = .velUnits := Iff.rfl

@[simp] theorem legal_wait_iff (p : Params) (ms : Nat) :
    (Act.wait ms).Legal p ↔ ms = p.savePollMs ∨ ms = p.autoSetupPollMs := Iff.rfl

@[simp] theorem legal_cwRead_iff (p : Params) (op : CwOp) : (Act.cwRead op).Legal p ↔ op ≠ .clearAll := Iff.rfl

@[simp] theorem legal_cwWrite (p : Params) (op : CwOp) : (Act.cwWrite op).Legal p := trivial

@[simp] theorem legalText_cwText (p : Params) (op : CwOp) : LegalText p (cwText op) := by
  cases op <;> simp [cwText]

@[simp] theorem legalText_enableText (p : Params) : LegalText p enableText := by
  simp [enableText, coreReads]

@[simp] theorem legalText_disableText (p : Params) : LegalText p disableText := by
  simp [disableText, coreReads]

@[simp] theorem legalText_setModeText (p : Params) (mode : Int) : LegalText p (setModeText mode) := by
  simp [setModeText, coreReads]

@[simp] theorem legalText_pollText (p : Params) (k : Poll) : LegalText p (pollText k) := by
  simp [pollText]

@[simp] theorem legalText_setHomingSpeedText (p : Params) (z sw : Word) : LegalText p (setHomingSpeedText z sw) := by
  simp [setHomingSpeedText, coreWrites]

@[simp] theorem legalText_setHomingModeText (p : Params) (method : Word) : LegalText p (setHomingModeText method) := by
  simp [setHomingModeText, coreWrites]

@[simp] theorem legalText_startHomingText (p : Params) : LegalText p (startHomingText p) := by
  simp [startHomingText, coreReads, coreWrites]

@[simp] theorem legalText_getValueText (p : Params) (r : RegName) :
    LegalText p (getValueText r) ↔ coreReads r = true ∧ r ≠ .cw := by
  simp [getValueText]

@[simp] theorem legalText_getPairText (p : Params) (ds dt : RegName) :
    LegalText p (getPairText ds dt) ↔ (coreReads ds = true ∧ ds ≠ .cw) ∧ coreReads dt = true ∧ dt ≠ .cw := by
  simp [getPairText]

@[simp] theorem legalText_haltText (p : Params) (c : Ctrl) : LegalText p (haltText p c) := by
  cases c <;> simp [haltText, homingHaltText, positionHaltText, baseHaltText, coreReads, coreWrites]

/-- Every command is a gate, its binding and a legal text. -/
theorem exec_command_legal {i : Instr} {f : Frame} (hc : encode i = .command f) (s : State) :
    ∃ g text, exec i s = runCommand g (issueBinding i) text s ∧ LegalText s.params text := by
  cases i with
  | cwShutdown | cwSwitchOn | cwEnableOperation | cwDisableOperation | cwDisableVoltage | cwQuickStop | cwQsRecover1
  | cwFaultResetLow | cwFaultResetHigh | cwStartSet | cwStartClear | cwHaltSet | cwHaltClear | cwPpTargetAbs
  | cwPpTargetRel | cwPpStart | cwClearAll => cases hc
  | enableOperation | disableOperation | setModeOfOperation | bindHoming | bindProfilePosition | bindVelocity
  | bindAutoSetup | unbind => exact ⟨.any, _, rfl, by simp⟩
  | halt | setHomingSpeed | setHomingMode | startHoming => exact ⟨_, _, rfl, by simp⟩
  | currentState => exact ⟨.any, _, rfl, by simp [currentStateText, coreReads]⟩
  | shutdown => exact ⟨.any, _, rfl, by simp [shutdownText, coreReads]⟩
  | quickStop => exact ⟨.any, _, rfl, by simp [quickStopText, coreReads]⟩
  | getModeOfOperation => exact ⟨.any, _, rfl, by simp [getModeText, coreReads]⟩
  | setMotorParameters => exact ⟨.any, _, rfl, by simp [setMotorParametersText, coreReads, coreWrites]⟩
  | getMotorParameters => exact ⟨.any, _, rfl, by simp [getMotorParametersText, coreReads]⟩
  | saveGroup => exact ⟨.any, _, rfl, by simp [saveGroupText, coreWrites]⟩
  | setUserUnitsFeed => exact ⟨.any, _, rfl, by simp [setFeedText, coreWrites]⟩
  | getPositionActual | getSpeedActual | getVelocityActual | getVelocityDemanded =>
    exact ⟨.any, _, rfl, by simp [coreReads]⟩
  | setHomingAcceleration | setProfileVelocity | setProfileAcceleration | setTargetVelocity | setVelocityAcceleration
  | setVelocityDeceleration => exact ⟨_, _, rfl, by simp [coreWrites]⟩
  | home => exact ⟨_, _, rfl, by simp [homeText]⟩
  | getHomingState => exact ⟨_, _, rfl, by simp [getHomingStateText, coreReads]⟩
  | setTargetPosition => exact ⟨_, _, rfl, by simp [setTargetPositionText, coreWrites]⟩
  | startPositioning => exact ⟨_, _, rfl, by simp [startPositioningText]⟩
  | setUserUnitsPositioning => exact ⟨_, _, rfl, by simp [setPosUnitsText, coreReads]⟩
  | getUserUnitsPositioning => exact ⟨_, _, rfl, by simp [getPosUnitsText, coreReads]⟩
  | getVelocityAcceleration | getVelocityDeceleration => exact ⟨_, _, rfl, by simp [coreReads]⟩
  | startVelocity => exact ⟨_, _, rfl, by simp [startVelocityText, coreWrites]⟩
  | setUserUnitsVelocity => exact ⟨_, _, rfl, by simp [setVelUnitsText, coreReads]⟩
  | getUserUnitsVelocity => exact ⟨_, _, rfl, by simp [getVelUnitsText, coreReads]⟩
  | autoSetupMotorParameters => exact ⟨_, _, rfl, by simp [autoSetupText, coreReads]⟩

/-! ## The core's next action (R36, R105) -/

/-- What the end of the latched command will write to `CTRL`; nothing when its opcode is not assigned. -/
def latchedBinding (s : State) : Option Ctrl := (decodeFrame s.frame).toOption.bind issueBinding

theorem latchedBinding_of_decodeFrame {s : State} {i : Instr} (hd : decodeFrame s.frame = .ok i) :
    latchedBinding s = issueBinding i := by
  simp [latchedBinding, hd, Except.toOption]

theorem issueBinding_held {i : Instr} {c : Ctrl} (h : issueBinding i = some c) : c.Held := by
  cases i <;> cases h <;> trivial

theorem latchedBinding_held {s : State} {c : Ctrl} (h : latchedBinding s = some c) : c.Held := by
  obtain ⟨_, _, hi⟩ := Option.bind_eq_some_iff.1 h
  exact issueBinding_held hi

/-- A frame that decodes to a BIND_* or UNBIND has one of their opcodes: in each row of the decoder the opcode is known,
or the command has no binding (R101). -/
theorem opc_of_issueBinding {f : Frame} {i : Instr} (hd : decodeFrame f = .ok i)
    (hb : (issueBinding i).isSome = true) : 0x30 ≤ f.opc.toNat ∧ f.opc.toNat ≤ 0x34 := by
  unfold decodeFrame at hd
  split at hd <;> cases hd <;> simp [issueBinding] at hb <;> omega

theorem latchedBinding_opc {s : State} (h : (latchedBinding s).isSome = true) :
    0x30 ≤ s.opc.toNat ∧ s.opc.toNat ≤ 0x34 := by
  unfold latchedBinding at h
  cases hd : decodeFrame s.frame with
  | ok i => exact opc_of_issueBinding hd (by simpa [hd, Except.toOption] using h)
  | error e => simp [hd, Except.toOption] at h

/-- The core stands before this text with these temporaries: those of its sequencer, or, at issue, a legal text with
fresh temporaries and the latched command's binding. -/
inductive StandsBefore (s : State) : List Stmt → Sequencer → Prop
  | underWay {q : Sequencer} {todo : List Stmt} : s.seq = some q → q.step = .before todo → StandsBefore s todo q
  | atIssue {text : List Stmt} : LegalText s.params text →
      StandsBefore s text { Sequencer.fresh with bind := latchedBinding s }

/-- A BUSY core makes the next action of the text it stands before, or the gate ends its command, or it stops at a `CTRL`
never held. -/
def CoreMove (s : State) (r : Result) : Prop :=
  (∃ todo q, StandsBefore s todo q ∧ r = advance todo q s) ∨
  r = .next (raise (.protocol .illegalCommand) { Sequencer.fresh with bind := latchedBinding s } s) ∨
  (¬ s.ctrl.Held ∧ r = .fault .ctrlNeverHeld)

/-- The sequencer is at issue, or a command is under way. -/
theorem seq_issued_or_underWay (s : State) :
    (s.seq.getD .fresh).step = .issued ∨ ∃ q todo, s.seq = some q ∧ q.step = .before todo := by
  cases hq : s.seq with
  | none => exact .inl rfl
  | some q =>
    cases ht : q.step with
    | issued => exact .inl ht
    | before todo => exact .inr ⟨q, todo, rfl, ht⟩

theorem not_held_of_gateCheck {g : Gate} {c : Ctrl} (h : gateCheck g c = .ctrlNeverHeld) : ¬ c.Held := by
  intro hc
  cases g with
  | any => cases h
  | held => rw [gateCheck_held hc] at h; cases h
  | needs want =>
    by_cases hw : c = want
    · subst hw; rw [gateCheck_needs_self hc] at h; cases h
    · rw [gateCheck_needs_other hc hw] at h; cases h

theorem coreMove_of_runCommand {g : Gate} {text : List Stmt} {s : State} (hl : LegalText s.params text) :
    CoreMove s (runCommand g (latchedBinding s) text s) := by
  rcases seq_issued_or_underWay s with hs | ⟨q, todo, hq, ht⟩
  · unfold runCommand
    rw [hs]
    dsimp only
    split
    next => exact .inl ⟨text, _, .atIssue hl, rfl⟩
    next => exact .inr (.inl rfl)
    next hg => exact .inr (.inr ⟨not_held_of_gateCheck hg, rfl⟩)
  · exact .inl ⟨todo, q, .underWay hq ht, runCommand_before hq ht⟩

/-- An opcode that is not assigned: refused at issue, and not looked at again after that (R105, log entry 25). -/
theorem coreMove_of_unassigned {s : State} {e : DecodeError} (hd : decodeFrame s.frame = .error e)
    (hh : headMicroOp (s.seq.getD .fresh).todo = none) : CoreMove s (coreStep s) := by
  have hcur : current s = none := by simp [current, hh, hd, Except.toOption]
  have hb : latchedBinding s = none := by simp [latchedBinding, hd, Except.toOption]
  rcases seq_issued_or_underWay s with hs | ⟨q, todo, hq, ht⟩
  · refine .inr (.inl ?_)
    rw [hb]
    simp only [coreStep, hcur, hs]
    rfl
  · exact .inl ⟨todo, q, .underWay hq ht, by simp [coreStep, hcur, hq, ht]⟩

theorem coreStep_coreMove (s : State) : CoreMove s (coreStep s) := by
  cases hh : headMicroOp (s.seq.getD .fresh).todo with
  | some op =>
    rcases seq_issued_or_underWay s with hs | ⟨q, todo, hq, ht⟩
    · simp [Sequencer.todo, hs, headMicroOp] at hh
    · refine .inl ⟨todo, q, .underWay hq ht, coreStep_of_microOp (op := op) hq ht ?_⟩
      simpa [hq, Sequencer.todo, ht] using hh
  | none =>
    cases hd : decodeFrame s.frame with
    | error e => exact coreMove_of_unassigned hd hh
    | ok i =>
      obtain ⟨f, hc⟩ := encode_of_decodeFrame hd
      obtain ⟨g, text, hi, hl⟩ := exec_command_legal hc s
      rw [coreStep_of_noMicroOp hd hh, hi, ← latchedBinding_of_decodeFrame hd]
      exact coreMove_of_runCommand hl

theorem StandsBefore.bind {s : State} {todo : List Stmt} {q : Sequencer} (h : StandsBefore s todo q) :
    s.seq = some q ∨ q.bind = latchedBinding s := by
  cases h with
  | underWay hq _ => exact .inl hq
  | atIssue => exact .inr rfl

/-! ## How far one step takes a command (R32, R355, R356) -/

/-- One step of a command that carries the binding `b` takes `s` to `t`: it waits, it goes on with `STATUS`, `RES` and
`CTRL` as they were, or it ends; only a binding changes `CTRL` at the end, and an end that is no success and no I/O error
is a protocol error, which makes no access and leaves `RES`. -/
inductive Progress (s : State) (b : Option Ctrl) (t : State) : Prop
  | waits : t = s → Progress s b t
  | goesOn (q : Sequencer) : t.seq = some q → q.bind = b → t.status = s.status → t.res = s.res → t.ctrl = s.ctrl →
      t.port = s.port → Progress s b t
  | ends : t.seq = none → t.port = .idle → t.completed = true →
      (t.ctrl = s.ctrl ∨ (b.isSome = true ∧ t.ctrl = .unbound) ∨ b = some t.ctrl) →
      (t.status = statusOk ∨ t.status = statusIoError ∨
        ((∃ e, t.status = protocolCode e) ∧ t.res = s.res ∧ t.trace = s.trace ∧ t.bus = s.bus)) → Progress s b t

theorem returnOk_progress (q : Sequencer) (s : State) : Progress s q.bind (returnOk q s) := by
  refine .ends rfl rfl rfl ?_ (.inl rfl)
  cases hb : q.bind <;> simp [hb]

/-- Taking an error clears `CTRL` exactly when the command carries a binding. -/
theorem raise_ctrl_cases (e : Raise) (q : Sequencer) (s : State) :
    (raise e q s).ctrl = s.ctrl ∨ (q.bind.isSome = true ∧ (raise e q s).ctrl = .unbound) := by
  cases hb : q.bind <;> simp [hb]

theorem raise_protocol_progress (e : ProtocolError) (q : Sequencer) (s : State) :
    Progress s q.bind (raise (.protocol e) q s) :=
  .ends rfl rfl rfl ((raise_ctrl_cases _ q s).imp_right .inl) (.inr (.inr ⟨⟨e, rfl⟩, rfl, rfl, rfl⟩))

/-- A failed access ends the command from a state with the `CTRL` that it found. -/
theorem raise_ioError_progress (e : Word) (q : Sequencer) {s u : State} (hu : u.ctrl = s.ctrl) :
    Progress s q.bind (raise (.ioError e) q u) :=
  .ends rfl rfl rfl (hu ▸ (raise_ctrl_cases _ q u).imp_right .inl) (.inr (.inl rfl))

theorem memRead_progress {r : RegName} {rest : List Stmt} {q : Sequencer} {s t : State}
    (h : memRead r rest q s = .next t) : Progress s q.bind t := by
  rcases memRead_cases h with ⟨_, rfl⟩ | ⟨x, more, _, rfl⟩ | ⟨e, more, _, rfl⟩
  · exact .waits rfl
  · exact .goesOn _ rfl rfl rfl rfl rfl rfl
  · exact raise_ioError_progress e q rfl

theorem memWrite_progress {r : RegName} {x : Word} {rest : List Stmt} {q : Sequencer} {s t : State}
    (h : memWrite r x rest q s = .next t) : Progress s q.bind t := by
  rcases memWrite_cases h with ⟨_, rfl⟩ | ⟨y, more, _, rfl⟩ | ⟨e, more, _, rfl⟩
  · exact .waits rfl
  · exact .goesOn _ rfl rfl rfl rfl rfl rfl
  · exact raise_ioError_progress e q rfl

theorem waitMs_progress {ms : Nat} {rest : List Stmt} {q : Sequencer} {s t : State}
    (h : waitMs ms rest q s = .next t) : Progress s q.bind t := by
  rcases waitMs_cases h with ⟨_, rfl⟩ | ⟨left, _, rfl⟩
  · exact .waits rfl
  · exact .goesOn _ rfl rfl rfl rfl rfl rfl

theorem perform_progress {a : Act} {rest : List Stmt} {q : Sequencer} {s t : State}
    (h : perform a rest q s = .next t) : Progress s q.bind t := by
  cases a with
  | read r => exact memRead_progress h
  | cwRead op => exact memRead_progress h
  | write r x => exact memWrite_progress h
  | writeWorking r => exact memWrite_progress h
  | cwWrite op => exact memWrite_progress h
  | wait ms => exact waitMs_progress h

theorem advance_progress {todo : List Stmt} {q : Sequencer} {s t : State} (h : advance todo q s = .next t) :
    Progress s q.bind t := by
  apply advance_elim_bind todo q h
  · rintro q' hb rfl; exact hb ▸ returnOk_progress q' s
  · rintro e q' hb rfl; exact hb ▸ raise_protocol_progress e q' s
  · intro a rest q' hb hp; exact hb ▸ perform_progress hp

theorem exec_progress {i : Instr} {s t : State} (h : exec i s = .next t) : ∃ b, Progress s b t := by
  apply exec_elim h
  · rintro q rfl; exact ⟨_, returnOk_progress q s⟩
  · rintro e q rfl; exact ⟨_, raise_protocol_progress e q s⟩
  · intro a rest q hp; exact ⟨_, perform_progress hp⟩

/-- Settles O53: a step waits, goes on, or ends. -/
theorem resultsOnlyAtTheEnd : Obligations.ResultsOnlyAtTheEnd := by
  intro i s t h
  obtain ⟨b, hp⟩ := exec_progress h
  cases hp with
  | waits ht =>
    subst ht
    exact ⟨fun _ => ⟨rfl, rfl, rfl, rfl⟩, fun hsome hnone => by simp [hnone] at hsome⟩
  | goesOn q hq _ hstatus hres hctrl hport =>
    exact ⟨fun _ => ⟨hstatus, hres, hctrl, hport⟩, fun _ hnone => by simp [hnone] at hq⟩
  | ends hseq hport hdone _ hend =>
    refine ⟨fun hsome => by simp [hseq] at hsome, fun _ _ => ⟨hport, hdone, fun hok hio => ?_⟩⟩
    rcases hend with h0 | h1 | ⟨_, hframe⟩
    · exact absurd h0 hok
    · exact absurd h1 hio
    · exact hframe

/-- The binding that the core's step carries is its sequencer's, or the latched command's. -/
theorem coreStep_progress {s t : State} (h : coreStep s = .next t) :
    ∃ b, ((∃ q, s.seq = some q ∧ q.bind = b) ∨ b = latchedBinding s) ∧ Progress s b t := by
  rcases coreStep_coreMove s with ⟨todo, q, hst, ha⟩ | hr | ⟨_, hf⟩
  · refine ⟨q.bind, ?_, advance_progress (ha ▸ h)⟩
    exact hst.bind.imp_left fun hq => ⟨q, hq, rfl⟩
  · obtain rfl := Host.Outcome.next.inj (hr ▸ h)
    exact ⟨_, .inr rfl,
      raise_protocol_progress .illegalCommand { Sequencer.fresh with bind := latchedBinding s } s⟩
  · simp [hf] at h

theorem advance_keepsConstants {todo : List Stmt} {q : Sequencer} {s t : State} (h : advance todo q s = .next t) :
    KeepsConstants s t := by
  apply advance_elim todo q h
  · rintro q rfl; simp [KeepsConstants]
  · rintro e q rfl; simp [KeepsConstants]
  · intro a rest q hp; exact perform_frame hp

theorem coreStep_keepsConstants {s t : State} (h : coreStep s = .next t) : KeepsConstants s t := by
  rcases coreStep_coreMove s with ⟨todo, q, _, ha⟩ | hr | ⟨_, hf⟩
  · exact advance_keepsConstants (ha ▸ h)
  · obtain rfl := Host.Outcome.next.inj (hr ▸ h)
    simp [KeepsConstants]
  · simp [hf] at h

/-! ## Progress (R34, R50) -/

/-- A core whose `CTRL` is held makes a step. -/
theorem coreStep_next {s : State} (hc : s.ctrl.Held) : ∃ t, coreStep s = .next t := by
  rcases coreStep_coreMove s with ⟨todo, q, _, ha⟩ | hr | ⟨hn, _⟩
  · rw [ha]; exact advance_next todo q s
  · exact ⟨_, hr⟩
  · exact absurd hc hn

theorem coreTurn_next {s : State} (hc : s.ctrl.Held) : ∃ t, coreTurn s = .next t := by
  unfold coreTurn
  split
  · exact coreStep_next hc
  · exact ⟨s, rfl⟩

/-- A host's move that is no early read lets the machine step. -/
theorem hostTurn_next {m : HostMove} {rest : List HostMove} {s : State} (hc : s.ctrl.Held)
    (hm : s.completed = true ∨ (m ≠ .readStatus ∧ ∀ k, m ≠ .readRes k)) : ∃ t, hostTurn m rest s = .next t := by
  cases m with
  | issue f =>
    simp only [hostTurn]
    split
    · exact coreStep_next hc
    · exact ⟨_, rfl⟩
  | awaitIdle =>
    simp only [hostTurn]
    split
    · exact coreStep_next hc
    · exact ⟨_, rfl⟩
  | pass => exact coreTurn_next (s := { s with host := rest }) hc
  | writePort f => exact ⟨_, rfl⟩
  | readStatus =>
    have hdone : s.completed = true := hm.resolve_right fun h => h.1 rfl
    exact ⟨_, hostRead_of_completed (s := { s with host := rest }) hdone⟩
  | readRes k =>
    have hdone : s.completed = true := hm.resolve_right fun h => h.2 k rfl
    exact ⟨_, hostRead_of_completed (s := { s with host := rest }) hdone⟩

/-- Settles O55: the core's own step never stops, and a host read does so only before the first completion. -/
theorem coreNeverStops : Obligations.CoreNeverStops := by
  intro s ⟨hc, _⟩ hread
  unfold step machineStep
  split
  next => exact coreTurn_next hc
  next m rest hh => exact hostTurn_next hc (hread.imp_right fun h => h m rest hh)

/-! ## Who writes `CTRL` (R34, R228, R229) -/

/-- The latched opcode is one of BIND_* and UNBIND. -/
def BindOpcode (s : State) : Prop := 0x30 ≤ s.opc.toNat ∧ s.opc.toNat ≤ 0x34

/-- The sequencer carries a binding only under the opcodes of BIND_* and UNBIND. -/
def BindingInv (s : State) : Prop := ∀ q, s.seq = some q → q.bind.isSome = true → BindOpcode s

/-- The binding that the core's step carries is under one of those opcodes. -/
theorem BindingInv.carried {s : State} (hi : BindingInv s) {b : Option Ctrl}
    (hb : (∃ q, s.seq = some q ∧ q.bind = b) ∨ b = latchedBinding s) (h : b.isSome = true) : BindOpcode s := by
  rcases hb with ⟨q, hq, rfl⟩ | rfl
  · exact hi q hq h
  · exact latchedBinding_opc h

theorem coreStep_bindingInv {s t : State} (hi : BindingInv s) (h : coreStep s = .next t) :
    BindingInv t ∧ (t.ctrl ≠ s.ctrl → BindOpcode s) := by
  obtain ⟨b, hb, hp⟩ := coreStep_progress h
  have hcarried := hi.carried hb
  cases hp with
  | waits ht =>
    subst ht
    exact ⟨hi, fun hne => absurd rfl hne⟩
  | goesOn q hq hqb _ _ hctrl _ =>
    obtain ⟨_, _, hopc, _⟩ := coreStep_keepsConstants h
    refine ⟨fun q' hq' hsome => ?_, fun hne => absurd hctrl hne⟩
    obtain rfl := Option.some.inj (hq.symm.trans hq')
    rw [BindOpcode, hopc]
    exact hcarried (hqb ▸ hsome)
  | ends hseq _ _ hctrl _ =>
    refine ⟨fun q hq => by simp [hseq] at hq, fun hne => hcarried ?_⟩
    rcases hctrl with hsame | ⟨hsome, _⟩ | hsome
    · exact absurd hsame hne
    · exact hsome
    · simp [hsome]

/-- Settles O56: a core step carries a binding only under an opcode that has one; an issue carries none, and a write to
the port finds no sequencer. -/
theorem onlyBindWritesCtrl : Obligations.OnlyBindWritesCtrl := by
  intro s t hi _ hidle h
  change BindingInv t ∧ (t.ctrl ≠ s.ctrl → BindOpcode s)
  cases stepKind_of_step h with
  | hostOnly host seen ht => exact ht ▸ ⟨hi, fun hne => absurd rfl hne⟩
  | portWritten f host hp ht =>
    subst ht
    exact ⟨fun q hq => by simp [hidle hp] at hq, fun hne => absurd rfl hne⟩
  | issued f host hp ht =>
    subst ht
    refine ⟨?_, fun hne => absurd rfl hne⟩
    rintro q ⟨⟩ ⟨⟩
  | core host hp hcore => exact coreStep_bindingInv (s := { s with host := host }) hi hcore

/-! ## The handshake, a held `CTRL`, a legal `STATUS` (R34, R36, R50, R106) -/

theorem coreStep_handshakeInv {s t : State} (hp : s.port = .busy) (hi : HandshakeInv s) (h : coreStep s = .next t) :
    HandshakeInv t := by
  obtain ⟨b, _, hpr⟩ := coreStep_progress h
  cases hpr with
  | waits ht => exact ht ▸ hi
  | goesOn q hq _ _ _ _ hport => simp [HandshakeInv, hq, hport, hp]
  | ends hseq hport _ _ _ => simp [HandshakeInv, hseq, hport]

theorem coreStep_ctrlInv {s t : State} (hi : CtrlInv s) (h : coreStep s = .next t) : CtrlInv t := by
  obtain ⟨b, hb, hpr⟩ := coreStep_progress h
  obtain ⟨hheld, hbind⟩ := hi
  have hcarried : ∀ c, b = some c → c.Held := by
    rintro c rfl
    rcases hb with ⟨q, hq, hqb⟩ | hb
    · exact hbind q hq c hqb
    · exact latchedBinding_held hb.symm
  cases hpr with
  | waits ht => exact ht ▸ ⟨hheld, hbind⟩
  | goesOn q hq hqb _ _ hctrl _ =>
    refine ⟨hctrl ▸ hheld, fun q' hq' c hc => ?_⟩
    obtain rfl := Option.some.inj (hq.symm.trans hq')
    exact hcarried c (hqb.symm.trans hc)
  | ends hseq _ _ hctrl _ =>
    refine ⟨?_, fun q hq => by simp [hseq] at hq⟩
    rcases hctrl with hsame | ⟨_, hun⟩ | hsome
    · exact hsame ▸ hheld
    · rw [hun]; trivial
    · exact hcarried _ hsome

theorem coreStep_statusInv {s t : State} (hi : StatusInv s) (h : coreStep s = .next t) : StatusInv t := by
  obtain ⟨b, _, hpr⟩ := coreStep_progress h
  cases hpr with
  | waits ht => exact ht ▸ hi
  | goesOn _ _ _ hstatus _ _ _ => rw [StatusInv, hstatus]; exact hi
  | ends _ _ _ _ hend => exact hend.imp_right (Or.imp_right And.left)

theorem issue_ctrlInv (f : Frame) {s : State} (hi : CtrlInv s) : CtrlInv (issue f s) := by
  refine ⟨hi.1, ?_⟩
  rintro q ⟨⟩ c ⟨⟩

/-- Settles O57: the host's moves touch none of these but by an issue, and the core's step keeps each. -/
theorem coreInvariantsKept : Obligations.CoreInvariantsKept := by
  intro s t h
  cases stepKind_of_step h with
  | hostOnly host seen ht => exact ht ▸ ⟨id, id, id, rfl, rfl, fun _ _ => ⟨rfl, rfl⟩⟩
  | portWritten f host hp ht => exact ht ▸ ⟨id, id, id, rfl, rfl, fun hb => by simp [hp] at hb⟩
  | issued f host hp ht =>
    subst ht
    exact ⟨fun _ => by simp [HandshakeInv], issue_ctrlInv f (s := { s with host := host }), id, rfl, rfl,
      fun hb => by simp [hp] at hb⟩
  | core host hp hcore =>
    obtain ⟨hparams, hdev, hopc, harg, _⟩ := coreStep_keepsConstants hcore
    exact ⟨fun hi => coreStep_handshakeInv (s := { s with host := host }) hp hi hcore,
      fun hi => coreStep_ctrlInv (s := { s with host := host }) hi hcore,
      fun hi => coreStep_statusInv (s := { s with host := host }) hi hcore,
      hparams, hdev, fun _ _ => ⟨hopc, harg⟩⟩

/-! ## A pure computation keeps the text legal and the fault counter in range (R37, R173) -/

/-- The fault counter has not passed the retries. -/
def FaultsInRange (p : Params) (q : Sequencer) : Prop := q.faults ≤ p.faultResetRetries

/-- What the computation puts before the text is legal, and its fault counter is in range. -/
def Verdict.Legal (p : Params) : Verdict → Prop
  | .raise _ => True
  | .pass q => FaultsInRange p q
  | .act a more q => a.Legal p ∧ LegalText p more ∧ FaultsInRange p q

@[simp] theorem legal_raise (p : Params) (e : ProtocolError) : (Verdict.raise e).Legal p := trivial

@[simp] theorem legal_pass_iff (p : Params) (q : Sequencer) : (Verdict.pass q).Legal p ↔ FaultsInRange p q := Iff.rfl

@[simp] theorem legal_act_iff (p : Params) (a : Act) (more : List Stmt) (q : Sequencer) :
    (Verdict.act a more q).Legal p ↔ a.Legal p ∧ LegalText p more ∧ FaultsInRange p q := Iff.rfl

@[simp] theorem legal_cw_iff (p : Params) (op : CwOp) (more : List Stmt) (q : Sequencer) :
    (Verdict.cw op more q).Legal p ↔ op ≠ .clearAll ∧ LegalText p more ∧ FaultsInRange p q := by
  simp [Verdict.cw]

section
variable {p : Params} {q : Sequencer}

theorem enableStateVerdict_legal (hq : FaultsInRange p q) : (enableStateVerdict p q).Legal p := by
  have hprev : ∀ prev, FaultsInRange p { q with prev := prev } := fun _ => hq
  unfold enableStateVerdict
  split
  next => trivial
  next st _ =>
    split
    next =>
      split
      · exact hq
      · split <;> simp [hq]
    next => cases st <;> simp [hprev, coreReads]

/-- The counter is raised only below the retries. -/
theorem enableCountFaultVerdict_legal (hq : FaultsInRange p q) : (enableCountFaultVerdict p q).Legal p := by
  unfold enableCountFaultVerdict
  split
  next => trivial
  next hne =>
    have hlt : q.faults + 1 ≤ p.faultResetRetries := by unfold FaultsInRange at hq; omega
    exact hlt

theorem disableStateVerdict_legal (hq : FaultsInRange p q) : (disableStateVerdict p q).Legal p := by
  unfold disableStateVerdict
  split <;> simp [hq]

theorem disableRecheckVerdict_legal (hq : FaultsInRange p q) : (disableRecheckVerdict p q).Legal p := by
  unfold disableRecheckVerdict
  split <;> simp [hq]

theorem shutdownStateVerdict_legal (hq : FaultsInRange p q) : (shutdownStateVerdict p q).Legal p := by
  unfold shutdownStateVerdict
  split <;> simp [hq]

theorem quickStopStateVerdict_legal (hq : FaultsInRange p q) : (quickStopStateVerdict p q).Legal p := by
  unfold quickStopStateVerdict
  split <;> simp [hq]

theorem quickStopRecheckVerdict_legal (hq : FaultsInRange p q) : (quickStopRecheckVerdict p q).Legal p := by
  unfold quickStopRecheckVerdict
  split <;> simp [hq]

theorem modeDiffersVerdict_legal (mode : Int) (hq : FaultsInRange p q) : (modeDiffersVerdict mode q).Legal p := by
  unfold modeDiffersVerdict
  split <;> simp [hq, coreReads, coreWrites]

theorem pollNextVerdict_legal (k : Poll) (hq : FaultsInRange p q) : (pollNextVerdict p k q).Legal p := by
  have hn : FaultsInRange p { q with n := q.n + 1 } := hq
  unfold pollNextVerdict
  split
  · trivial
  · cases k <;> simp [hn, pollReg, coreReads]

theorem pollCheckVerdict_legal (k : Poll) (hq : FaultsInRange p q) : (pollCheckVerdict p k q).Legal p := by
  unfold pollCheckVerdict
  split
  · exact hq
  · cases k <;> simp [hq, pollMs]

theorem homingAbortVerdict_legal (hq : FaultsInRange p q) : (homingAbortVerdict q).Legal p := by
  unfold homingAbortVerdict
  split <;> simp [hq]

/-- What a computation decides is legal, whatever the working value. -/
theorem verdict_legal (hq : FaultsInRange p q) (k : Test) : (verdict p q k).Legal p := by
  cases k with
  | enableState => exact enableStateVerdict_legal hq
  | enableCountFault => exact enableCountFaultVerdict_legal hq
  | disableState => exact disableStateVerdict_legal hq
  | disableRecheck => exact disableRecheckVerdict_legal hq
  | shutdownState => exact shutdownStateVerdict_legal hq
  | quickStopState => exact quickStopStateVerdict_legal hq
  | quickStopRecheck => exact quickStopRecheckVerdict_legal hq
  | modeDiffers mode => exact modeDiffersVerdict_legal mode hq
  | pollNext k => exact pollNextVerdict_legal k hq
  | pollCheck k => exact pollCheckVerdict_legal k hq
  | homingAbort => exact homingAbortVerdict_legal hq
  | modeResult | stage | driveModeResult | packPos | posUnitsResult | packVel | velUnitsResult => exact hq
  | currentStateResult | driveModeEdit | haltMode | homingSpeedOrder | homingResult | precondition =>
    simp only [verdict, currentStateResultVerdict, driveModeEditVerdict, haltModeVerdict, homingSpeedOrderVerdict,
      homingResultVerdict, preconditionVerdict]
    split <;> trivial

end

/-! ## A legal text records legal events (R49, R72, R73) -/

/-- The step to `t` leaves a legal text, and every event it adds to the trace of `s` is legal. -/
structure LegalStep (s t : State) : Prop where
  text : TextInv t
  events : ∀ e ∈ t.trace, e ∈ s.trace ∨ e.Legal s.params s.dev

theorem LegalStep.refl {s : State} (h : TextInv s) : LegalStep s s := ⟨h, fun _ => .inl⟩

/-- The end of a command leaves no text. -/
theorem textInv_of_no_seq {t : State} (h : t.seq = none) : TextInv t := by
  intro q hq
  simp [h] at hq

theorem textInv_of_before {t : State} {q : Sequencer} {rest : List Stmt}
    (hseq : t.seq = some { q with step := .before rest }) (hl : LegalText t.params rest)
    (hf : FaultsInRange t.params q) : TextInv t := by
  intro q' hq'
  obtain rfl := Option.some.inj (hseq.symm.trans hq')
  exact ⟨hl, hf⟩

/-- One legal event more. -/
theorem legal_of_mem_append {s : State} {ev : Event} (h : ev.Legal s.params s.dev) {e : Event}
    (he : e ∈ s.trace ++ [ev]) : e ∈ s.trace ∨ e.Legal s.params s.dev := by
  rcases List.mem_append.1 he with hold | hnew
  · exact .inl hold
  · exact .inr (List.mem_singleton.1 hnew ▸ h)

/-- A value cut to its width stays as it is when it is cut again. -/
theorem lowBits_lowBits (w : Width) (x : Word) : lowBits w (lowBits w x) = lowBits w x := by
  cases w <;> simp [lowBits, BitVec.setWidth_setWidth_of_le]

theorem readEvent_legal (s : State) {r : RegName} (hr : coreReads r = true) (x : DWord) :
    (readEvent s r x).Legal s.params s.dev := ⟨rfl, r, hr, rfl, rfl⟩

theorem readFailedEvent_legal (s : State) {r : RegName} (hr : coreReads r = true) :
    (readFailedEvent s r).Legal s.params s.dev := ⟨rfl, r, hr, rfl, rfl⟩

theorem writeEvent_legal (s : State) {r : RegName} (hr : coreWrites r = true) (x : Word) :
    (writeEvent s r x).Legal s.params s.dev := ⟨rfl, r, hr, rfl, rfl, lowBits_lowBits _ x⟩

theorem writeFailedEvent_legal (s : State) {r : RegName} (hr : coreWrites r = true) (x : Word) :
    (writeFailedEvent s r x).Legal s.params s.dev := ⟨rfl, r, hr, rfl, rfl, lowBits_lowBits _ x⟩

section
variable {rest : List Stmt} {q : Sequencer} {s t : State} (hi : TextInv s) (hl : LegalText s.params rest)
  (hf : FaultsInRange s.params q)
include hi hl hf

theorem memRead_legalStep {r : RegName} (hr : coreReads r = true) (h : memRead r rest q s = .next t) :
    LegalStep s t := by
  rcases memRead_cases h with ⟨_, rfl⟩ | ⟨x, more, _, rfl⟩ | ⟨e, more, _, rfl⟩
  · exact .refl hi
  · exact ⟨textInv_of_before (q := { q with v := narrow (regParam s.params r) x }) rfl hl hf,
      fun _ => legal_of_mem_append (readEvent_legal s hr x)⟩
  · exact ⟨textInv_of_no_seq rfl, fun _ => legal_of_mem_append (readFailedEvent_legal s hr)⟩

theorem memWrite_legalStep {r : RegName} {x : Word} (hr : coreWrites r = true)
    (h : memWrite r x rest q s = .next t) : LegalStep s t := by
  rcases memWrite_cases h with ⟨_, rfl⟩ | ⟨y, more, _, rfl⟩ | ⟨e, more, _, rfl⟩
  · exact .refl hi
  · exact ⟨textInv_of_before (q := q) rfl hl hf, fun _ => legal_of_mem_append (writeEvent_legal s hr x)⟩
  · exact ⟨textInv_of_no_seq rfl, fun _ => legal_of_mem_append (writeFailedEvent_legal s hr x)⟩

theorem waitMs_legalStep {ms : Nat} (hms : ms = s.params.savePollMs ∨ ms = s.params.autoSetupPollMs)
    (h : waitMs ms rest q s = .next t) : LegalStep s t := by
  rcases waitMs_cases h with ⟨_, rfl⟩ | ⟨left, _, rfl⟩
  · exact .refl hi
  · exact ⟨textInv_of_before (q := q) rfl hl hf, fun _ => legal_of_mem_append (s := s) (ev := .wait ms) hms⟩

theorem perform_legalStep {a : Act} (ha : a.Legal s.params) (h : perform a rest q s = .next t) : LegalStep s t := by
  cases a with
  | read r => exact memRead_legalStep hi hl hf ha.1 h
  | cwRead op => exact memRead_legalStep hi hl hf rfl h
  | write r x => exact memWrite_legalStep hi hl hf ha.1 h
  | writeWorking r => exact memWrite_legalStep hi hl hf (by rcases ha with rfl | rfl | rfl <;> rfl) h
  | cwWrite op => exact memWrite_legalStep hi hl hf rfl h
  | wait ms => exact waitMs_legalStep hi hl hf ha h

end

/-- A step before a legal text is legal: the computations up to the next action keep the text legal. -/
theorem advance_legalStep {s t : State} (hi : TextInv s) {todo : List Stmt} {q : Sequencer}
    (hl : LegalText s.params todo) (hf : FaultsInRange s.params q) (h : advance todo q s = .next t) :
    LegalStep s t := by
  induction todo generalizing q with
  | nil =>
    obtain rfl := Host.Outcome.next.inj h
    exact ⟨textInv_of_no_seq rfl, fun _ => .inl⟩
  | cons st rest ih =>
    cases st with
    | act a =>
      obtain ⟨ha, hrest⟩ := (legalText_act _ _ _).1 hl
      exact perform_legalStep hi hrest hf ha h
    | test k =>
      have hrest := (legalText_test _ _ _).1 hl
      have hk := verdict_legal hf k
      cases hv : verdict s.params q k with
      | raise e =>
        rw [advance_test_raise hv] at h
        obtain rfl := Host.Outcome.next.inj h
        exact ⟨textInv_of_no_seq rfl, fun _ => .inl⟩
      | pass q' =>
        rw [advance_test_pass hv] at h
        rw [hv] at hk
        exact ih hrest hk h
      | act a more q' =>
        rw [advance_test_act hv] at h
        rw [hv] at hk
        obtain ⟨ha, hmore, hf'⟩ := hk
        exact perform_legalStep hi ((legalText_append _ _ _).2 ⟨hmore, hrest⟩) hf' ha h

/-- The text that the core stands before is legal, and its fault counter in range. -/
theorem StandsBefore.legal {s : State} {todo : List Stmt} {q : Sequencer} (h : StandsBefore s todo q)
    (hi : TextInv s) : LegalText s.params todo ∧ FaultsInRange s.params q := by
  cases h with
  | underWay hq ht =>
    obtain ⟨hl, hf⟩ := hi q hq
    rw [Sequencer.todo, ht] at hl
    exact ⟨hl, hf⟩
  | atIssue hl => exact ⟨hl, Nat.zero_le _⟩

theorem coreStep_legalStep {s t : State} (hi : TextInv s) (h : coreStep s = .next t) : LegalStep s t := by
  rcases coreStep_coreMove s with ⟨todo, q, hst, ha⟩ | hr | ⟨_, hf⟩
  · obtain ⟨hl, hf⟩ := hst.legal hi
    exact advance_legalStep hi hl hf (ha ▸ h)
  · obtain rfl := Host.Outcome.next.inj (hr ▸ h)
    exact ⟨textInv_of_no_seq rfl, fun _ => .inl⟩
  · simp [hf] at h

/-- An issue creates a sequencer with no text yet and no fault counted. -/
theorem issue_textInv (f : Frame) (s : State) : TextInv (issue f s) := by
  rintro q ⟨⟩
  exact ⟨legalText_nil s.params, Nat.zero_le _⟩

/-- The host's moves record no event, so only the core's step adds to the trace. -/
theorem step_legalStep {s t : State} (hi : TextInv s) (h : step s = .next t) : LegalStep s t := by
  cases stepKind_of_step h with
  | hostOnly host seen ht => exact ht ▸ ⟨hi, fun _ => .inl⟩
  | portWritten f host _ ht => exact ht ▸ ⟨hi, fun _ => .inl⟩
  | issued f host _ ht => exact ht ▸ ⟨issue_textInv f _, fun _ => .inl⟩
  | core host _ hcore =>
    obtain ⟨htext, hevents⟩ := coreStep_legalStep (s := { s with host := host }) hi hcore
    exact ⟨htext, hevents⟩

theorem step_params_dev {s t : State} (h : step s = .next t) : t.params = s.params ∧ t.dev = s.dev := by
  obtain ⟨_, _, _, hparams, hdev, _⟩ := coreInvariantsKept s t h
  exact ⟨hparams, hdev⟩

/-- Settles O58: a step from a legal text is a `LegalStep`, and the parameters and the handle stay. -/
theorem textAndTraceLegal : Obligations.TextAndTraceLegal := by
  intro s t hi htr h
  obtain ⟨htext, hevents⟩ := step_legalStep hi h
  obtain ⟨hparams, hdev⟩ := step_params_dev h
  refine ⟨htext, fun e he => ?_⟩
  rw [hparams, hdev]
  exact (hevents e he).elim (htr e) id

/-! ## The status word is never written (R40, R49) -/

/-- The default registers that the core writes have other addresses than the status word. -/
theorem statusApart_defaultParams : StatusApart defaultParams := by
  intro r hr
  cases r with
  | sw | posActual | speedActual | velActual | velDemand => cases hr
  | save g => simp [regParam, defaultParams]
  | _ => decide

/-- A legal write goes to a register that the core may write, which is no status word. -/
theorem Event.Legal.not_writesTo_status {p : Params} {dev : DeviceHandle} {e : Event} (h : e.Legal p dev)
    (hp : StatusApart p) : ¬ e.writesTo (regParam p .sw).addr := by
  cases e with
  | read | readFailed | wait => exact id
  | write d a w v | writeFailed d a w v =>
    obtain ⟨_, r, hr, ha, _⟩ := h
    intro hw
    exact hp r hr (ha.symm.trans hw)

/-- Settles O59: every event that a step adds is legal. -/
theorem statusWordNeverWritten : Obligations.StatusWordNeverWritten :=
  ⟨statusApart_defaultParams, fun _ _ hi hp h e he =>
    ((step_legalStep hi h).events e he).imp_right fun hlegal => hlegal.not_writesTo_status hp⟩

end Sys2Proof.Machine
end

section
/-! The statements of the encoding family: the decoder and the encoder invert each other, the status decoders, the
control-word masks and the packings, and the runs of the commands that use them. -/

namespace Sys2Proof.Machine

/-! ## Decoding the code of an instruction (R100 to R104, R146) -/

/-- Settles O1, one row of the tables at a time: a row without operands decodes by evaluation, and each operand of the
other rows survives its field. -/
theorem decodeOfEncode : Obligations.DecodeOfEncode := by
  intro i
  cases i with
  | setModeOfOperation mode => exact Laws.DecodeEncode.setModeOfOperation mode
  | setMotorParameters pp rc mc mcd ic dm => exact Laws.DecodeEncode.setMotorParameters pp rc mc mcd ic dm
  | saveGroup g => exact Laws.DecodeEncode.saveGroup g
  | setUserUnitsFeed num den => exact Laws.DecodeEncode.setUserUnitsFeed num den
  | setHomingSpeed z sw => exact Laws.DecodeEncode.setHomingSpeed z sw
  | setHomingMode method => exact Laws.DecodeEncode.setHomingMode method
  | setHomingAcceleration acc => exact Laws.DecodeEncode.setHomingAcceleration acc
  | home z sw => exact Laws.DecodeEncode.home z sw
  | setTargetPosition value rel => exact Laws.DecodeEncode.setTargetPosition value rel
  | setProfileVelocity speed => exact Laws.DecodeEncode.setProfileVelocity speed
  | setProfileAcceleration acc => exact Laws.DecodeEncode.setProfileAcceleration acc
  | setUserUnitsPositioning unit exponent => exact Laws.DecodeEncode.setUserUnitsPositioning unit exponent
  | setTargetVelocity vel => exact Laws.DecodeEncode.setTargetVelocity vel
  | setVelocityAcceleration ds dt => exact Laws.DecodeEncode.setVelocityAcceleration ds dt
  | setVelocityDeceleration ds dt => exact Laws.DecodeEncode.setVelocityDeceleration ds dt
  | setUserUnitsVelocity unit exponent tb => exact Laws.DecodeEncode.setUserUnitsVelocity unit exponent tb
  | _ => exact fun _ => rfl

/-- Settles O4: each word holds the operands of its instruction in the fields of the table. -/
theorem handWrittenCodes : Obligations.HandWrittenCodes := by
  refine ⟨rfl, ?_, rfl, rfl, rfl, ?_, rfl, rfl, rfl, rfl, rfl⟩
  · exact decodeOfEncode (.setModeOfOperation (-2)) (by decide)
  · exact decodeOfEncode (.setTargetPosition (-2000) true) (by decide)

/-! ## Encoding a decoded frame (R103, R104, R120) -/

/-- The low `n` bits of an operand register, with 0 above them. -/
def lowField : Nat → Word → Word
  | 0, _ => 0
  | 32, x => x
  | n, x => (x.setWidth n).setWidth 32

theorem toNat_lowField (n : Nat) (x : Word) : (lowField n x).toNat = x.toNat % 2 ^ n := by
  unfold lowField
  split
  next => simp [Nat.mod_one]
  next => exact (Nat.mod_eq_of_lt x.isLt).symm
  next =>
    simp only [BitVec.toNat_setWidth]
    exact Nat.mod_eq_of_lt ((Nat.mod_le _ _).trans_lt x.isLt)

theorem setWidth_ofInt_argSigned8 (x : Word) : (BitVec.ofInt 8 (argSigned8 x)).setWidth 32 = lowField 8 x := by
  rw [argSigned8, BitVec.ofInt_toInt]
  rfl

theorem ofInt_argSigned32 (x : Word) : BitVec.ofInt 32 (argSigned32 x) = x := BitVec.ofInt_toInt

theorem setWidth_ofBool_argFlag (x : Word) : (BitVec.ofBool (argFlag x)).setWidth 32 = lowField 1 x := by
  rw [argFlag, ← BitVec.setWidth_one]
  rfl

/-- A signed 8-bit field holds an integer that fits it. -/
theorem decide_fitsSigned_argSigned8 (x : Word) : decide (FitsSigned 8 (argSigned8 x)) = true :=
  decide_eq_true ⟨BitVec.le_toInt _, BitVec.toInt_lt⟩

/-- A signed 32-bit field holds an integer that fits it. -/
theorem decide_fitsSigned_argSigned32 (x : Word) : decide (FitsSigned 32 (argSigned32 x)) = true :=
  decide_eq_true ⟨BitVec.le_toInt _, BitVec.toInt_lt⟩

/-- The operand fields of an opcode in `arg`, with 0 in every other bit (R104). -/
def operandFields (opc : Byte) (arg : Bank) : Bank :=
  ⟨lowField (operandBits opc 0) arg.r0, lowField (operandBits opc 1) arg.r1, lowField (operandBits opc 2) arg.r2,
    lowField (operandBits opc 3) arg.r3, lowField (operandBits opc 4) arg.r4, lowField (operandBits opc 5) arg.r5⟩

theorem get_operandFields (opc : Byte) (arg : Bank) (k : Fin 6) :
    (operandFields opc arg).get k = lowField (operandBits opc k) (arg.get k) := by
  match k with
  | 0 | 1 | 2 | 3 | 4 | 5 => rfl

theorem opc_of_toNat {opc : Byte} {n : Nat} (h : opc.toNat = n) : opc = BitVec.ofNat 8 n := by
  rw [← h, BitVec.ofNat_toNat, BitVec.setWidth_eq]

theorem wellFormed_of_decodeFrame {f : Frame} {i : Instr} (h : decodeFrame f = .ok i) : i.WellFormed := by
  unfold decodeFrame at h
  split at h <;> cases h <;>
    simp only [Instr.WellFormed, Instr.fits, decide_fitsSigned_argSigned8, decide_fitsSigned_argSigned32]

/-- A decoded command's code is the frame's opcode with the opcode's operand fields: in each row of the decoder the
opcode is known, and each operand goes back to the field it was read from. -/
theorem encode_of_decodeFrame_eq {f : Frame} {i : Instr} (h : decodeFrame f = .ok i) :
    encode i = .command ⟨f.opc, operandFields f.opc f.arg⟩ := by
  obtain ⟨opc, arg⟩ := f
  unfold decodeFrame at h
  split at h <;> cases h
  all_goals
    next hopc =>
      obtain rfl := opc_of_toNat hopc
      simp only [encode, setWidth_ofInt_argSigned8, ofInt_argSigned32, setWidth_ofBool_argFlag]
      rfl

/-- Settles O2: no bit outside the operand fields was read. -/
theorem encodeOfDecode : Obligations.EncodeOfDecode := fun f _ h =>
  ⟨wellFormed_of_decodeFrame h, _, encode_of_decodeFrame_eq h, rfl, fun k => by
    rw [get_operandFields, toNat_lowField]⟩

/-! ## The assigned opcodes (R101, R105, R120) -/

theorem decodeFrame_of_assigned {f : Frame} (h : f.opc ∈ assignedOpcodes) : ∃ i, decodeFrame f = .ok i := by
  obtain ⟨opc, arg⟩ := f
  dsimp only at h
  unfold assignedOpcodes at h
  fin_cases h <;> exact ⟨_, rfl⟩

theorem assigned_of_decodeFrame {f : Frame} {i : Instr} (h : decodeFrame f = .ok i) : f.opc ∈ assignedOpcodes := by
  unfold decodeFrame at h
  split at h <;> cases h
  all_goals
    next hopc =>
      rw [opc_of_toNat hopc]
      decide

theorem decodeFrame_error {f : Frame} {e : DecodeError} (h : decodeFrame f = .error e) :
    e = .unassignedOpcode f.opc := by
  unfold decodeFrame at h
  split at h <;> cases h
  rfl

theorem decodeFrame_of_unassigned {f : Frame} (h : f.opc ∉ assignedOpcodes) :
    decodeFrame f = .error (.unassignedOpcode f.opc) := by
  cases hd : decodeFrame f with
  | ok i => exact absurd (assigned_of_decodeFrame hd) h
  | error e => rw [decodeFrame_error hd]

/-- A protocol error that ends a command is the end `failed` describes (R353, R355). -/
theorem raise_protocol_eq_failed (e : ProtocolError) (q : Sequencer) (s : State) :
    raise (.protocol e) q s =
      failed s s.bus s.timer [] (protocolCode e) s.res (if q.bind.isSome then .unbound else s.ctrl) := by
  simp [raise, failed, raiseCode, raiseResults]

theorem coreStep_of_unassigned {s : State} (hs : s.seq = some .fresh) (h : s.opc ∉ assignedOpcodes) :
    coreStep s = .next (raise (.protocol .illegalCommand) .fresh s) := by
  have hd : decodeFrame s.frame = .error (.unassignedOpcode s.opc) := decodeFrame_of_unassigned h
  have hcur : current s = none := by
    simp [current, hs, Sequencer.fresh, Sequencer.todo, headMicroOp, hd, Except.toOption]
  simp [coreStep, hcur, hs, Sequencer.fresh]

/-- Settles O3: the decoder's rows are the assigned opcodes, and a core that finds another one raises its error. -/
theorem unassignedOpcodesRefused : Obligations.UnassignedOpcodesRefused := by
  refine ⟨fun f => ⟨fun ⟨_, h⟩ => assigned_of_decodeFrame h, decodeFrame_of_assigned⟩,
    fun f => decodeFrame_of_unassigned, ?_⟩
  rintro s ⟨hp, hs⟩ hh h
  rw [step_of_busy hp hh, coreStep_of_unassigned hs h, raise_protocol_eq_failed]
  rfl

/-! ## The decoders (R108, R109, R112 to R114, R152, R154) -/

theorem mem_statePriority (p : PowerState) : p ∈ statePriority := by
  cases p <;> decide

theorem templateMatches_iff (t : Template) (sw : HalfWord) : templateMatches t sw = true ↔ sw &&& t.mask = t.value :=
  beq_iff_eq

theorem templateMatches_false_iff (t : Template) (sw : HalfWord) :
    templateMatches t sw = false ↔ sw &&& t.mask ≠ t.value :=
  beq_eq_false_iff_ne

/-- The decoder gives the first state of the order whose template matches. -/
theorem decodeState_eq_some_iff (t : StateTemplates) (sw : HalfWord) (p : PowerState) :
    decodeState t sw = some p ↔ ∃ before after, statePriority = before ++ p :: after ∧
      sw &&& (templateOf t p).mask = (templateOf t p).value ∧
      ∀ q ∈ before, sw &&& (templateOf t q).mask ≠ (templateOf t q).value := by
  simp only [decodeState, List.find?_eq_some_iff_append, Bool.not_eq_true', templateMatches_iff,
    templateMatches_false_iff]
  constructor
  · rintro ⟨hp, before, after, horder, hbefore⟩
    exact ⟨before, after, horder, hp, hbefore⟩
  · rintro ⟨before, after, horder, hp, hbefore⟩
    exact ⟨hp, before, after, horder, hbefore⟩

/-- The decoder gives no state when no template matches. -/
theorem decodeState_eq_none_iff (t : StateTemplates) (sw : HalfWord) :
    decodeState t sw = none ↔ ∀ p, sw &&& (templateOf t p).mask ≠ (templateOf t p).value := by
  simp [decodeState, mem_statePriority, templateMatches_iff]

/-- Settles O5: the decoder is the first match in the list of the states. -/
theorem statusDecodeFirstMatch : Obligations.StatusDecodeFirstMatch := fun t sw =>
  ⟨decodeState_eq_some_iff t sw, decodeState_eq_none_iff t sw⟩

theorem matches_of_decodeState {t : StateTemplates} {sw : HalfWord} {p : PowerState} (h : decodeState t sw = some p) :
    sw &&& (templateOf t p).mask = (templateOf t p).value := by
  obtain ⟨_, _, _, hp, _⟩ := (decodeState_eq_some_iff t sw p).1 h
  exact hp

/-- Two default templates whose values agree under both masks are one state's. -/
theorem eq_of_defaultTemplates_agree {p q : PowerState}
    (h : (templateOf defaultTemplates p).value &&& (templateOf defaultTemplates q).mask =
      (templateOf defaultTemplates q).value &&& (templateOf defaultTemplates p).mask) : p = q := by
  have all : ∀ p ∈ statePriority, ∀ q ∈ statePriority,
      (templateOf defaultTemplates p).value &&& (templateOf defaultTemplates q).mask =
        (templateOf defaultTemplates q).value &&& (templateOf defaultTemplates p).mask → p = q := by decide
  exact all p (mem_statePriority p) q (mem_statePriority q) h

/-- No status word matches the default templates of two states. -/
theorem eq_of_defaultTemplates_match {sw : HalfWord} {p q : PowerState}
    (hp : sw &&& (templateOf defaultTemplates p).mask = (templateOf defaultTemplates p).value)
    (hq : sw &&& (templateOf defaultTemplates q).mask = (templateOf defaultTemplates q).value) : p = q := by
  apply eq_of_defaultTemplates_agree
  rw [← hp, ← hq, BitVec.and_assoc, BitVec.and_assoc, BitVec.and_comm (templateOf defaultTemplates p).mask]

theorem decodeState_default_iff (sw : HalfWord) (p : PowerState) : decodeState defaultTemplates sw = some p ↔
    sw &&& (templateOf defaultTemplates p).mask = (templateOf defaultTemplates p).value := by
  refine ⟨matches_of_decodeState, fun hp => ?_⟩
  cases hd : decodeState defaultTemplates sw with
  | none => exact absurd hp ((decodeState_eq_none_iff _ _).1 hd p)
  | some q => rw [eq_of_defaultTemplates_match (matches_of_decodeState hd) hp]

/-- The default templates test bits 0 to 3, 5 and 6 only. -/
theorem and_defaultTemplates_mask (sw : HalfWord) (p : PowerState) :
    sw &&& (templateOf defaultTemplates p).mask = (sw &&& 0x006F) &&& (templateOf defaultTemplates p).mask := by
  have hm : (0x006F : HalfWord) &&& (templateOf defaultTemplates p).mask = (templateOf defaultTemplates p).mask := by
    cases p <;> rfl
  rw [BitVec.and_assoc, hm]

/-- Settles O6: the default templates are disjoint, and none tests a bit outside 0x006F. -/
theorem defaultTemplatesDisjoint : Obligations.DefaultTemplatesDisjoint := by
  refine ⟨decodeState_default_iff, fun sw sw' h => Option.ext fun p => ?_⟩
  rw [decodeState_default_iff, decodeState_default_iff, and_defaultTemplates_mask sw, and_defaultTemplates_mask sw', h]

/-- Settles O7, row by row of the truth table. -/
theorem homingTruthTable : Obligations.HomingTruthTable := by
  intro sw
  unfold decodeHoming
  cases sw.getLsbD 13 <;> cases sw.getLsbD 12 <;> cases sw.getLsbD 10 <;> rfl

/-- Settles O12, code by code. -/
theorem stateCodes : Obligations.StateCodes := by
  refine ⟨rfl, rfl, fun p => ?_, fun h => ?_⟩
  · cases p <;> decide
  · cases h <;> decide

/-! ## The control-word masks (R102, R141, R142, R151, R167, R177) -/

theorem cwWord_clearAll (v : HalfWord) : cwWord .clearAll v = 0 := rfl

theorem cwWord_of_ne_clearAll {op : CwOp} (h : op ≠ .clearAll) (v : HalfWord) :
    cwWord op v = (v ||| cwSet op) &&& ~~~cwClr op := by
  cases op with
  | clearAll => exact absurd rfl h
  | _ => rfl

theorem cwSet_and_cwClr (op : CwOp) : cwSet op &&& cwClr op = 0 := by
  cases op <;> rfl

/-- The mask of a read-modify-write is the bits it sets and the bits it clears. -/
theorem mask_of_ne_clearAll {op : CwOp} (h : op ≠ .clearAll) : op.mask = cwSet op ||| cwClr op := by
  cases op with
  | clearAll => exact absurd rfl h
  | _ => rfl

theorem mtch_eq_cwSet (op : CwOp) : op.mtch = cwSet op := by
  cases op <;> rfl

/-- A masked write shows the set bits under its mask. -/
theorem maskedWrite_and_mask {set clr : HalfWord} (h : set &&& clr = 0) (v : HalfWord) :
    ((v ||| set) &&& ~~~clr) &&& (set ||| clr) = set := by
  ext i hi
  have hbit : (set[i] && clr[i]) = false := by simpa using congrArg (·[i]) h
  simp only [BitVec.getElem_and, BitVec.getElem_or, BitVec.getElem_not]
  revert hbit
  cases v[i] <;> cases set[i] <;> cases clr[i] <;> simp

/-- A masked write keeps the bits outside its mask. -/
theorem maskedWrite_and_outside {set clr keep : HalfWord} (h : keep &&& (set ||| clr) = 0) (v : HalfWord) :
    ((v ||| set) &&& ~~~clr) &&& keep = v &&& keep := by
  ext i hi
  have hbit : (keep[i] && (set[i] || clr[i])) = false := by simpa using congrArg (·[i]) h
  simp only [BitVec.getElem_and, BitVec.getElem_or, BitVec.getElem_not]
  revert hbit
  cases v[i] <;> cases set[i] <;> cases clr[i] <;> simp

theorem cwWord_and_mask (op : CwOp) (v : HalfWord) : cwWord op v &&& op.mask = op.mtch := by
  by_cases h : op = .clearAll
  · rw [h, cwWord_clearAll]; rfl
  · rw [cwWord_of_ne_clearAll h, mask_of_ne_clearAll h, mtch_eq_cwSet, maskedWrite_and_mask (cwSet_and_cwClr op)]

/-- A read-modify-write keeps every bit that its mask does not have. -/
theorem cwWord_and_keep {op : CwOp} {keep : HalfWord} (h : op ≠ .clearAll) (hk : keep &&& op.mask = 0)
    (v : HalfWord) : cwWord op v &&& keep = v &&& keep := by
  rw [mask_of_ne_clearAll h] at hk
  rw [cwWord_of_ne_clearAll h, maskedWrite_and_outside hk]

theorem cwWord_and_not_mask (op : CwOp) (v : HalfWord) : cwWord op v &&& ~~~op.mask = v &&& ~~~op.mask := by
  by_cases h : op = .clearAll
  · rw [h, show ~~~CwOp.clearAll.mask = 0#16 from rfl, BitVec.and_zero, BitVec.and_zero]
  · exact cwWord_and_keep h (by simp) v

/-- No read-modify-write has a bit from 9 to 15 in its mask. -/
theorem highBits_and_mask {op : CwOp} (h : op ≠ .clearAll) : 0xFE00 &&& op.mask = 0 := by
  cases op with
  | clearAll => exact absurd rfl h
  | _ => rfl

/-- The micro-ops that the power-state rules apply (R177). -/
def powerStateOps : List CwOp :=
  [.shutdown, .switchOn, .enableOperation, .disableOperation, .disableVoltage, .quickStop, .qsRecover1,
    .faultResetLow, .faultResetHigh]

theorem modeBits_and_mask : ∀ op ∈ powerStateOps, op ≠ .clearAll ∧ 0x0170 &&& op.mask = 0 := by decide

/-- Settles O8: a read-modify-write is a masked write whose mask is the bits it sets and clears. -/
theorem microOpWords : Obligations.MicroOpWords := by
  refine ⟨cwSet_and_cwClr, fun op v h => cwWord_of_ne_clearAll h v,
    fun op v => ⟨cwWord_and_mask op v, cwWord_and_not_mask op v⟩,
    fun op v h => cwWord_and_keep h (highBits_and_mask h) v, fun op v h => ?_, cwWord_clearAll⟩
  obtain ⟨hne, hkeep⟩ := modeBits_and_mask op h
  exact cwWord_and_keep hne hkeep v

/-! ## The packings (R117, R118) -/

/-- Words with the same low `n` bits are equal under the mask of those bits. -/
theorem and_lowMask_congr {n : Nat} {x y : Word} (h : x.setWidth n = y.setWidth n) :
    x &&& (BitVec.allOnes n).setWidth 32 = y &&& (BitVec.allOnes n).setWidth 32 := by
  ext i hi
  simpa [hi, Bool.and_comm] using congrArg (·.getLsbD i) h

theorem unitField_packPos (old : Word) (unit exponent : Byte) : unitField (packPos old unit exponent) = unit := by
  rw [unitField, packPos, BitVec.extractLsb'_append_eq_of_le (by decide), BitVec.extractLsb'_append_eq_right]

theorem exponentField_packPos (old : Word) (unit exponent : Byte) :
    exponentField (packPos old unit exponent) = exponent := by
  rw [exponentField, packPos, BitVec.extractLsb'_append_eq_of_le (by decide), BitVec.extractLsb'_append_eq_left]

theorem setWidth_packPos (old : Word) (unit exponent : Byte) :
    (packPos old unit exponent).setWidth 16 = old.setWidth 16 := BitVec.setWidth_append_eq_right

theorem unitField_packVel (old : Word) (unit exponent timebase : Byte) :
    unitField (packVel old unit exponent timebase) = unit := by
  rw [unitField, packVel, BitVec.extractLsb'_append_eq_of_le (by decide),
    BitVec.extractLsb'_append_eq_of_le (by decide), BitVec.extractLsb'_append_eq_right]

theorem exponentField_packVel (old : Word) (unit exponent timebase : Byte) :
    exponentField (packVel old unit exponent timebase) = exponent := by
  rw [exponentField, packVel, BitVec.extractLsb'_append_eq_of_le (by decide),
    BitVec.extractLsb'_append_eq_of_le (by decide), BitVec.extractLsb'_append_eq_left]

theorem timebaseField_packVel (old : Word) (unit exponent timebase : Byte) :
    timebaseField (packVel old unit exponent timebase) = timebase := by
  rw [timebaseField, packVel, BitVec.extractLsb'_append_eq_of_le (by decide), BitVec.extractLsb'_append_eq_right]

theorem setWidth_packVel (old : Word) (unit exponent timebase : Byte) :
    (packVel old unit exponent timebase).setWidth 8 = old.setWidth 8 := BitVec.setWidth_append_eq_right

/-- Settles O9: each field is one part of the packed word. -/
theorem userUnitPackings : Obligations.UserUnitPackings := fun old unit exponent timebase =>
  ⟨⟨unitField_packPos old unit exponent, exponentField_packPos old unit exponent,
      and_lowMask_congr (setWidth_packPos old unit exponent)⟩,
    unitField_packVel old unit exponent timebase, exponentField_packVel old unit exponent timebase,
    timebaseField_packVel old unit exponent timebase, and_lowMask_congr (setWidth_packVel old unit exponent timebase)⟩

/-! ## The gate (R105, R225) -/

/-- A command of family 1, 2 or 3 may run under any `CTRL`; a command of another family has the gate of the controller
that the family needs (R105). -/
theorem exec_family {i : Instr} {f : Frame} (hc : encode i = .command f) (s : State) :
    familyNeeds f.opc = some none ∨
    ∃ c text, familyNeeds f.opc = some (some c) ∧ exec i s = runCommand (.needs c) none text s := by
  cases i with
  | setHomingSpeed | setHomingMode | setHomingAcceleration | startHoming | home | getHomingState
  | setTargetPosition | setProfileVelocity | setProfileAcceleration | startPositioning | setUserUnitsPositioning
  | getUserUnitsPositioning | setTargetVelocity | setVelocityAcceleration | getVelocityAcceleration
  | setVelocityDeceleration | getVelocityDeceleration | startVelocity | setUserUnitsVelocity | getUserUnitsVelocity
  | autoSetupMotorParameters =>
    cases hc
    refine .inr ⟨_, _, ?_, rfl⟩
    dsimp only
    rfl
  | cwShutdown | cwSwitchOn | cwEnableOperation | cwDisableOperation | cwDisableVoltage | cwQuickStop | cwQsRecover1
  | cwFaultResetLow | cwFaultResetHigh | cwStartSet | cwStartClear | cwHaltSet | cwHaltClear | cwPpTargetAbs
  | cwPpTargetRel | cwPpStart | cwClearAll => cases hc
  | _ =>
    cases hc
    left
    dsimp only
    rfl

/-- A command that the gate is not open to needs a controller that `CTRL` is not. -/
theorem exec_of_not_gateOpen {i : Instr} {f : Frame} {s : State} (hc : encode i = .command f)
    (hg : ¬ GateOpen f.opc s.ctrl) : ∃ c text, s.ctrl ≠ c ∧ exec i s = runCommand (.needs c) none text s := by
  rcases exec_family hc s with hfam | ⟨c, text, hfam, he⟩
  · exact absurd (.inl hfam) hg
  · exact ⟨c, text, fun h => hg (.inr (h ▸ hfam)), he⟩

/-- A command just issued whose gate finds `CTRL` at a value never held stops (I15). -/
theorem runCommand_ctrlNeverHeld {g : Gate} {b : Option Ctrl} {text : List Stmt} {s : State} (h : s.seq = some .fresh)
    (hg : gateCheck g s.ctrl = .ctrlNeverHeld) : runCommand g b text s = .fault .ctrlNeverHeld := by
  simp [runCommand, h, hg, Sequencer.fresh]

/-- Settles O18: the gate of a command it is not open to is the one of a controller that `CTRL` is not. -/
theorem gateRefusals : Obligations.GateRefusals := by
  rintro i f s hc ⟨-, hs⟩
  refine ⟨fun hheld hg => ?_, fun k hk hor => ?_⟩
  · obtain ⟨c, text, hne, he⟩ := exec_of_not_gateOpen hc hg
    rw [he, runCommand_illegal hs (gateCheck_needs_other hheld hne), raise_protocol_eq_failed]
    rfl
  · rcases hor with hg | rfl
    · obtain ⟨c, text, -, he⟩ := exec_of_not_gateOpen hc hg
      rw [he, runCommand_ctrlNeverHeld hs (by rw [hk]; rfl)]
    · exact runCommand_ctrlNeverHeld hs (by rw [hk]; rfl)

/-! ## The user units (R117, R118, R277, R278, R307, R308) -/

section
variable {r : RegName} {k : Test} {s : State} {b more : List Answer} {es : List Event} {x y : DWord}

/-- The disable step, the read of `r`, a computation that sets the working value, and its write back. -/
theorem runs_disable_readModifyWrite {z : Word} (hd : DisableRun s b es none) (hb : s.bus = b ++ .ok x :: .ok y :: more)
    (hv : ∀ q : Sequencer, q.v = readValue s r x → verdict s.params q k = .pass { q with v := z }) :
    Runs (b.length + 2) (disableText ++ [.act (.read r), .test k, .act (.writeWorking r)])
      { Sequencer.fresh with bind := none } s
      (succeeded s more s.timer (es ++ [readEvent s r x, writeEvent s r z]) s.res s.ctrl) := by
  refine .start hb (hd.runs_ok fun q sq ⟨_, hstaged, hbind⟩ => ?_)
  refine .read (.pass (hv _ rfl) (.writeWorking (Runs.ends.to ?_)))
  simp [hstaged, hbind, Sequencer.fresh, commit]

/-- The disable step, the read of `r`, and a computation that stages results. -/
theorem runs_disable_readResult {staged : List (Fin 6 × Word)} (hd : DisableRun s b es none)
    (hb : s.bus = b ++ .ok x :: more)
    (hv : ∀ q : Sequencer, q.v = readValue s r x →
      verdict s.params q k = .pass { q with staged := q.staged ++ staged }) :
    Runs (b.length + 1) (disableText ++ [.act (.read r), .test k]) { Sequencer.fresh with bind := none } s
      (succeeded s more s.timer (es ++ [readEvent s r x]) (commit staged s.res) s.ctrl) := by
  refine .start hb (hd.runs_ok fun q sq ⟨_, hstaged, hbind⟩ => ?_)
  refine .read (.pass (hv _ rfl) (Runs.ends.to ?_))
  simp [hstaged, hbind, Sequencer.fresh]

end

theorem verdict_packPos (p : Params) (q : Sequencer) (unit exponent : Byte) :
    verdict p q (.packPos unit exponent) = .pass { q with v := packPos q.v unit exponent } := rfl

theorem verdict_packVel (p : Params) (q : Sequencer) (unit exponent timebase : Byte) :
    verdict p q (.packVel unit exponent timebase) = .pass { q with v := packVel q.v unit exponent timebase } := rfl

/-- The results that the position units `v` are reported as (R278). -/
def posUnitsResults (v : Word) : List (Fin 6 × Word) :=
  [(0, (unitField v).setWidth 32), (1, (exponentField v).setWidth 32)]

/-- The results that the velocity units `v` are reported as (R308). -/
def velUnitsResults (v : Word) : List (Fin 6 × Word) :=
  [(0, (unitField v).setWidth 32), (1, (exponentField v).setWidth 32), (2, (timebaseField v).setWidth 32)]

theorem verdict_posUnitsResult (p : Params) (q : Sequencer) :
    verdict p q .posUnitsResult = .pass { q with staged := q.staged ++ posUnitsResults q.v } := by
  simp [verdict, posUnitsResultVerdict, Sequencer.stageResult, posUnitsResults]

theorem verdict_velUnitsResult (p : Params) (q : Sequencer) :
    verdict p q .velUnitsResult = .pass { q with staged := q.staged ++ velUnitsResults q.v } := by
  simp [verdict, velUnitsResultVerdict, Sequencer.stageResult, velUnitsResults]

/-- Settles O37: the read-modify-write and the read of the position units after the disable step. -/
theorem positionUnitsRun : Obligations.PositionUnitsRun := by
  intro unit exponent s b more es x hi hctrl hd
  have hg : gateCheck (.needs .profilePosition) s.ctrl = .allowed := by rw [hctrl]; rfl
  refine ⟨fun y hb => ?_, fun hb => ?_⟩
  · exact Runs.exec rfl rfl hi hg (runs_disable_readModifyWrite hd hb fun q hq => by rw [verdict_packPos, hq]; rfl)
  · exact Runs.exec rfl rfl hi hg
      (runs_disable_readResult (staged := posUnitsResults (readValue s .posUnits x)) hd hb
        fun q hq => by rw [verdict_posUnitsResult, hq])

/-- Settles O38: the read-modify-write and the read of the velocity units after the disable step. -/
theorem velocityUnitsRun : Obligations.VelocityUnitsRun := by
  intro unit exponent timebase s b more es x hi hctrl hd
  have hg : gateCheck (.needs .velocity) s.ctrl = .allowed := by rw [hctrl]; rfl
  refine ⟨fun y hb => ?_, fun hb => ?_⟩
  · exact Runs.exec rfl rfl hi hg (runs_disable_readModifyWrite hd hb fun q hq => by rw [verdict_packVel, hq]; rfl)
  · exact Runs.exec rfl rfl hi hg
      (runs_disable_readResult (staged := velUnitsResults (readValue s .velUnits x)) hd hb
        fun q hq => by rw [verdict_velUnitsResult, hq])

/-! ## The micro-ops (R142, R167) -/

/-- A micro-op whose own action is next makes that action. -/
theorem runMicroOp_of_head {op : CwOp} {s : State} {q : Sequencer} {todo : List Stmt} (hq : s.seq = some q)
    (ht : q.step = .before todo) (hh : headMicroOp todo = some op) : runMicroOp op s = advance todo q s := by
  have htodo : q.todo = todo := by rw [Sequencer.todo, ht]
  rw [runMicroOp, hq, Option.getD_some, htodo, microOpText_of_head hh]

/-- The control-word read of a micro-op. -/
theorem runMicroOp_cwRead {op : CwOp} {s : State} {q : Sequencer} {rest : List Stmt} {x : DWord} {more : List Answer}
    (hq : s.seq = some q) (ht : q.step = .before (.act (.cwRead op) :: rest)) (hb : s.bus = .ok x :: more) :
    runMicroOp op s = .next (afterRead .cw x more rest q s) :=
  (runMicroOp_of_head hq ht rfl).trans (memRead_ok hb)

/-- The control-word write of a micro-op. -/
theorem runMicroOp_cwWrite {op : CwOp} {s : State} {q : Sequencer} {rest : List Stmt} {y : DWord} {more : List Answer}
    (hq : s.seq = some q) (ht : q.step = .before (.act (.cwWrite op) :: rest)) (hb : s.bus = .ok y :: more) :
    runMicroOp op s = .next (afterWrite .cw ((cwWord op (word16 q.v)).setWidth 32) more rest q s) :=
  (runMicroOp_of_head hq ht rfl).trans (memWrite_ok hb)

/-- A read-modify-write is its control-word read and the write of the word that its masks give. -/
theorem runMicroOp_readModifyWrite {op : CwOp} (hop : op ≠ .clearAll) {s : State} {q : Sequencer} {rest : List Stmt}
    {x y : DWord} {more : List Answer} (hq : s.seq = some q)
    (ht : q.step = .before (.act (.cwRead op) :: .act (.cwWrite op) :: rest))
    (hb : s.bus = .ok x :: .ok y :: more) :
    ∃ u, runMicroOp op s = .next u ∧ runMicroOp op u = .next
      { s with
        bus := more
        trace := s.trace ++ [readEvent s .cw x,
          writeEvent s .cw (((word16 (readValue s .cw x) ||| cwSet op) &&& ~~~cwClr op).setWidth 32)]
        seq := some { q with v := readValue s .cw x, step := .before rest } } := by
  refine ⟨_, runMicroOp_cwRead hq ht hb, ?_⟩
  rw [runMicroOp_cwWrite (afterRead_seq ..) rfl (afterRead_bus ..), cwWord_of_ne_clearAll hop]
  simp [afterWrite, afterRead, readEvent, writeEvent, readValue]

/-- `CW_CLEAR_ALL` is one write of 0. -/
theorem runMicroOp_clearAll {s : State} {q : Sequencer} {rest : List Stmt} {y : DWord} {more : List Answer}
    (hq : s.seq = some q) (ht : q.step = .before (.act (.cwWrite .clearAll) :: rest)) (hb : s.bus = .ok y :: more) :
    runMicroOp .clearAll s = .next
      { s with
        bus := more
        trace := s.trace ++ [writeEvent s .cw 0x00000000]
        seq := some { q with step := .before rest } } := by
  rw [runMicroOp_cwWrite hq ht hb, cwWord_clearAll]
  rfl

/-- The 16 micro-ops that are read-modify-writes, as instructions and as the sequencer names them (R102). -/
def readModifyWriteOps : List (Instr × CwOp) :=
  [(.cwShutdown, .shutdown), (.cwSwitchOn, .switchOn), (.cwEnableOperation, .enableOperation),
    (.cwDisableOperation, .disableOperation), (.cwDisableVoltage, .disableVoltage), (.cwQuickStop, .quickStop),
    (.cwQsRecover1, .qsRecover1), (.cwFaultResetLow, .faultResetLow), (.cwFaultResetHigh, .faultResetHigh),
    (.cwStartSet, .startSet), (.cwStartClear, .startClear), (.cwHaltSet, .haltSet), (.cwHaltClear, .haltClear),
    (.cwPpTargetAbs, .ppTargetAbs), (.cwPpTargetRel, .ppTargetRel), (.cwPpStart, .ppStart)]

theorem instr_of_mem_readModifyWriteOps :
    ∀ io ∈ readModifyWriteOps, io.1 = io.2.instr ∧ io.2 ≠ .clearAll := by decide

/-- Settles O51: every micro-op as an instruction is `runMicroOp`, and 16 of them are read-modify-writes. -/
theorem microOpActions : Obligations.MicroOpActions := by
  intro s q rest more hq
  refine ⟨fun i op x y hmem ht hb => ?_, fun y ht hb => runMicroOp_clearAll hq ht hb⟩
  obtain ⟨hi, hop⟩ : i = op.instr ∧ op ≠ .clearAll := instr_of_mem_readModifyWriteOps (i, op) hmem
  simp only [hi, exec_microOp_instr]
  exact runMicroOp_readModifyWrite hop hq ht hb

end Sys2Proof.Machine
end

section
/-! The statement of the codec family: the polling arbiter, and SAVE_GROUP, which polls its save register. -/

namespace Sys2Proof.Machine

/-! ## The polling arbiter (R160) -/

section
variable {s : State} {k : Poll} {q : Sequencer}

/-- Within the bound, the next turn of a poll is counted and reads the register. -/
theorem verdict_pollNext_of_lt (h : q.n < pollMax s.params k) : verdict s.params q (.pollNext k) =
    .act (.read (pollReg k)) [.test (.pollCheck k)] { q with n := q.n + 1 } :=
  if_neg (Nat.not_le.2 h)

/-- At the bound, a poll raises its timeout. -/
theorem verdict_pollNext_of_le (h : pollMax s.params k ≤ q.n) :
    verdict s.params q (.pollNext k) = .raise (pollTimeout k) :=
  if_pos h

/-- A read that satisfies the predicate ends the poll. -/
theorem verdict_pollCheck_of_done (h : pollDone q.v k = true) : verdict s.params q (.pollCheck k) = .pass q :=
  if_pos h

/-- A read that does not satisfy the predicate is followed by a wait and the next turn. -/
theorem verdict_pollCheck_of_not_done (h : pollDone q.v k = false) : verdict s.params q (.pollCheck k) =
    .act (.wait (pollMs s.params k)) [.test (.pollNext k)] q :=
  if_neg (by simp [h])

variable {n tl : Nat} {rest : List Stmt} {t : State} {b : List Answer} {es : List Event} {sq : Option Sequencer}

/-- `m` turns of a poll are counted from `q` to `q'`; the staged results and the binding are as they were. -/
def PollCounted (m : Nat) (q q' : Sequencer) : Prop := q'.n = q.n + m ∧ q'.staged = q.staged ∧ q'.bind = q.bind

theorem PollCounted.trans {l m : Nat} {q₁ q₂ q₃ : Sequencer} (h : PollCounted l q₁ q₂) (h' : PollCounted m q₂ q₃) :
    PollCounted (m + l) q₁ q₃ := by
  obtain ⟨hn, hst, hb⟩ := h
  obtain ⟨hn', hst', hb'⟩ := h'
  exact ⟨by omega, hst'.trans hst, hb'.trans hb⟩

/-- A turn whose read does not satisfy the predicate: the read, the wait, and the poll's next turn. -/
theorem Runs.pollTurn {x : DWord} (hlt : q.n < pollMax s.params k)
    (hx : pollDone (readValue s (pollReg k) x) k = false)
    (hk : ∀ q' sq', PollCounted 1 q q' → Runs n (pollText k ++ rest) q'
      (mid s b tl (es ++ [readEvent s (pollReg k) x, .wait (pollMs s.params k)]) sq') t) :
    Runs (n + 2) (pollText k ++ rest) q (mid s (.ok x :: b) (tl + 1) es sq) t := by
  refine .goOn (verdict_pollNext_of_lt hlt) (.read (.goOn (verdict_pollCheck_of_not_done hx) (.wait ?_)))
  rw [List.append_assoc]
  exact hk _ _ ⟨rfl, rfl, rfl⟩

/-- The failing turns of a poll, as many as the bound allows: each reads and waits. -/
theorem Runs.pollTurns {xs : List DWord} (hxs : NoneDone s k xs) (hle : q.n + xs.length ≤ pollMax s.params k)
    (hk : ∀ q' sq', PollCounted xs.length q q' → Runs n (pollText k ++ rest) q'
      (mid s b tl (es ++ pollEvents s (pollReg k) (pollMs s.params k) xs) sq') t) :
    Runs (2 * xs.length + n) (pollText k ++ rest) q (mid s (answers xs ++ b) (xs.length + tl) es sq) t := by
  induction xs generalizing q es sq with
  | nil => simpa [answers, pollEvents] using hk q sq ⟨rfl, rfl, rfl⟩
  | cons x xs ih =>
    obtain ⟨hx, hxs⟩ := List.forall_mem_cons.1 hxs
    rw [List.length_cons] at hle hk ⊢
    rw [show 2 * (xs.length + 1) + n = 2 * xs.length + n + 2 by omega, Nat.add_right_comm xs.length 1 tl]
    refine .pollTurn (by omega) hx fun q₁ sq₁ h₁ => ih hxs (by obtain ⟨hn, -, -⟩ := h₁; omega) fun q₂ sq₂ h₂ => ?_
    simpa [pollEvents] using hk q₂ sq₂ (h₁.trans h₂)

/-- A turn whose read satisfies the predicate ends the poll with no wait. -/
theorem Runs.pollSucceeds {x : DWord} (hlt : q.n < pollMax s.params k)
    (hx : pollDone (readValue s (pollReg k) x) k = true)
    (hk : ∀ q' sq', PollCounted 1 q q' → Runs n rest q' (mid s b tl (es ++ [readEvent s (pollReg k) x]) sq') t) :
    Runs (n + 1) (pollText k ++ rest) q (mid s (.ok x :: b) tl es sq) t :=
  .goOn (verdict_pollNext_of_lt hlt)
    (.read (.pass (verdict_pollCheck_of_done hx) (hk _ _ ⟨rfl, rfl, rfl⟩)))

/-- A poll with no turn left ends the run with its timeout. -/
theorem Runs.pollTimesOut (hle : pollMax s.params k ≤ q.n) : Runs 0 (pollText k ++ rest) q (mid s b tl es sq)
    (failed s b tl es (protocolCode (pollTimeout k)) s.res (if q.bind.isSome then .unbound else s.ctrl)) :=
  .raises (verdict_pollNext_of_le hle)

end

/-! ## SAVE_GROUP (R212, R213) -/

theorem pollDone_save_iff (v : Word) (g : Byte) : pollDone v (.save g) = true ↔ v = 1 := beq_iff_eq

theorem noneDone_save {s : State} {g : Byte} {xs : List DWord} (h : ∀ x ∈ xs, readValue s (.save g) x ≠ 1) :
    NoneDone s (.save g) xs :=
  fun x hx => Bool.eq_false_iff.2 fun hd => h x hx ((pollDone_save_iff _ g).1 hd)

/-- SAVE_GROUP up to the turn that ends its poll: the disable step, the signature's write, and the failing turns. -/
theorem runs_saveGroup {g : Byte} {s t : State} {b more : List Answer} {es : List Event} {y : DWord}
    {xs : List DWord} {left n : Nat} (hd : DisableRun s b es none) (hxs : NoneDone s (.save g) xs)
    (hle : xs.length ≤ s.params.savePollMax) (htimer : s.timer = xs.length + left)
    (hb : s.bus = b ++ .ok y :: (answers xs ++ more))
    (hk : ∀ q sq, q.n = xs.length → q.staged = [] → q.bind = none → Runs n (pollText (.save g)) q
      (mid s more left (es ++ writeEvent s (.save g) s.params.saveSignature ::
        pollEvents s (.save g) s.params.savePollMs xs) sq) t) :
    Runs (b.length + 2 * xs.length + 1 + n) (saveGroupText s.params g) { Sequencer.fresh with bind := none } s t := by
  rw [show b.length + 2 * xs.length + 1 + n = b.length + (2 * xs.length + n + 1) by omega]
  refine .start hb (hd.runs_ok fun q₁ sq₁ ⟨hn₁, hst₁, hbind₁⟩ => .write ?_)
  have h₁ : q₁.n = 0 := hn₁
  rw [htimer]
  refine .pollTurns (rest := []) hxs (by simpa [h₁, pollMax] using hle) fun q₂ sq₂ ⟨hn₂, hst₂, hbind₂⟩ => ?_
  rw [List.append_assoc]
  exact hk q₂ sq₂ (by simpa [h₁] using hn₂) (hst₂.trans hst₁) (hbind₂.trans hbind₁)

/-- Settles O35: after the failing turns, the poll's end by the read of 1 or by its bound. -/
theorem saveGroupRuns : Obligations.SaveGroupRuns := by
  intro g s b more es y xs left hi hd hxs htimer
  refine ⟨fun x hx hlt hb => ?_, fun hlen hb => ?_⟩
  · refine Runs.exec rfl rfl hi (gateCheck_any _)
      (runs_saveGroup (n := 1) hd (noneDone_save hxs) hlt.le htimer hb fun q sq hn hstaged hbind => ?_)
    refine .pollSucceeds (rest := []) (hn.trans_lt hlt) ((pollDone_save_iff _ g).2 hx)
      fun q' sq' ⟨_, hstaged', hbind'⟩ => Runs.ends.to ?_
    simp [hstaged', hstaged, hbind', hbind, commit, pollReg]
  · refine Runs.exec rfl rfl hi (gateCheck_any _)
      (runs_saveGroup (n := 0) hd (noneDone_save hxs) hlen.le htimer hb fun q sq hn _ hbind => ?_)
    refine (Runs.pollTimesOut (s := s) (k := .save g) (rest := []) (hlen.symm.trans hn.symm).le).to ?_
    simp [hbind, pollTimeout, protocolCode]

end Sys2Proof.Machine
end

section
/-! The statements of the power-state family: each command's run is its status reads with the micro-ops they call for,
and the EnableOperation loop, its ends on a constant drive and its hang. -/

namespace Sys2Proof.Machine

/-! ## What a pure computation makes of the rest of a run -/

/-- The computation goes on as `q`, with the statements `front` put in front of the rest of the text. -/
inductive Verdict.PutsIn : Verdict → List Stmt → Sequencer → Prop
  | nothing (q : Sequencer) : PutsIn (.pass q) [] q
  | statements (a : Act) (more : List Stmt) (q : Sequencer) : PutsIn (.act a more q) (.act a :: more) q

/-- The verdict of a computation that ends its rule with `r`. -/
def endVerdict (q : Sequencer) : Option ProtocolError → Verdict
  | none => .pass q
  | some e => .raise e

/-- The temporaries after a read of the value `v`, before `todo`. -/
def Sequencer.withRead (q : Sequencer) (v : Word) (todo : List Stmt) : Sequencer :=
  { q with v := v, step := .before todo }

theorem readState_withRead (s : State) (q : Sequencer) (x : DWord) (todo : List Stmt) :
    readState s.params (q.withRead (readValue s .sw x) todo) = stateShown s x := rfl

section
variable {s t : State} {q q₁ : Sequencer} {k : Test} {n tl : Nat} {rest : List Stmt} {b more : List Answer}
  {es es₀ : List Event} {sq : Option Sequencer} {r : Option ProtocolError} {x : DWord}

theorem Runs.putIn {front : List Stmt} (hv : (verdict s.params q k).PutsIn front q₁)
    (h : Runs n (front ++ rest) q₁ s t) : Runs n (.test k :: rest) q s t := by
  generalize hw : verdict s.params q k = w at hv
  cases hv with
  | nothing => exact .pass hw h
  | statements => exact .goOn hw h

/-- How a run goes on after a called rule that ended with `r`: by the rest of the text after success, and not at all
after an error, which is the command's end (R358). -/
def GoesOn (s : State) (more : List Answer) (tl : Nat) (es : List Event) (q : Sequencer) (rest : List Stmt) (n : Nat)
    (t : State) : Option ProtocolError → Prop
  | none => ∀ q' sq', Keeps q q' → Runs n rest q' (mid s more tl es sq') t
  | some e => n = 0 ∧ t = failed s more tl es (protocolCode e) s.res (if q.bind.isSome then .unbound else s.ctrl)

theorem Keeps.trans {q₂ : Sequencer} (h : Keeps q q₁) (h' : Keeps q₁ q₂) : Keeps q q₂ := by
  obtain ⟨hn, hst, hb⟩ := h
  obtain ⟨hn', hst', hb'⟩ := h'
  exact ⟨hn'.trans hn, hst'.trans hst, hb'.trans hb⟩

theorem GoesOn.of_keeps (h : GoesOn s more tl es q rest n t r) (hq : Keeps q q₁) :
    GoesOn s more tl es q₁ rest n t r := by
  cases r with
  | none => exact fun q' sq' hq' => h q' sq' (hq.trans hq')
  | some e =>
    obtain ⟨_, _, hbind⟩ := hq
    simpa only [GoesOn, hbind] using h

/-- The last computation of a called rule. -/
theorem GoesOn.test (h : GoesOn s more tl es q rest n t r) (hv : verdict s.params q k = endVerdict q r) :
    Runs n (.test k :: rest) q (mid s more tl es sq) t := by
  cases r with
  | none => exact .pass hv (h q sq ⟨rfl, rfl, rfl⟩)
  | some e =>
    obtain ⟨rfl, rfl⟩ := h
    exact .raises hv

/-- A rule that is the last of its command ends it. -/
theorem goesOn_ended (hstaged : q.staged = []) (hbind : q.bind = none) :
    GoesOn s more tl es q [] 0 (ended s more tl es s.res s.ctrl r) r := by
  cases r with
  | none =>
    intro q' sq' ⟨_, hst', hb'⟩
    exact Runs.ends.to (by simp [ended, hst', hstaged, hb', hbind, commit])
  | some e => exact ⟨rfl, by simp [ended, hbind]⟩

/-- A status read whose computation ends its rule. -/
theorem GoesOn.readThenTest (h : GoesOn s more tl (es₀ ++ [readEvent s .sw x]) q rest n t r)
    (hv : verdict s.params (q.withRead (readValue s .sw x) (.test k :: rest)) k =
      endVerdict (q.withRead (readValue s .sw x) (.test k :: rest)) r) :
    Runs (n + 1) (.act (.read .sw) :: .test k :: rest) q (mid s (.ok x :: more) tl es₀ sq) t :=
  .read (GoesOn.test (h.of_keeps ⟨rfl, rfl, rfl⟩) hv)

/-- A status read whose computation puts in the micro-ops `ops` and the statements `back`. -/
theorem Runs.readThenOps {ops : List CwOp} {back : List Stmt}
    (hv : (verdict s.params (q.withRead (readValue s .sw x) (.test k :: rest)) k).PutsIn (cwTexts ops ++ back) q₁)
    (hcw : CwRun s ops b es)
    (hk : ∀ q' sq', q'.prev = q₁.prev → q'.faults = q₁.faults → Keeps q₁ q' →
      Runs n (back ++ rest) q' (mid s more tl (es₀ ++ readEvent s .sw x :: es) sq') t) :
    Runs (b.length + n + 1) (.act (.read .sw) :: .test k :: rest) q (mid s (.ok x :: (b ++ more)) tl es₀ sq) t := by
  refine .read (.putIn hv ?_)
  rw [List.append_assoc]
  refine hcw.runs fun q' sq' hprev hfaults hq' => ?_
  simpa using hk q' sq' hprev hfaults hq'

/-- A status read whose computation puts in the micro-ops `ops` and nothing else. -/
theorem Runs.readThenOnlyOps {ops : List CwOp}
    (hv : ∀ q : Sequencer, readState s.params q = stateShown s x → (verdict s.params q k).PutsIn (cwTexts ops) q)
    (hcw : CwRun s ops b es)
    (hk : ∀ q' sq', Keeps q q' → Runs n rest q' (mid s more tl (es₀ ++ readEvent s .sw x :: es) sq') t) :
    Runs (b.length + n + 1) (.act (.read .sw) :: .test k :: rest) q (mid s (.ok x :: (b ++ more)) tl es₀ sq) t :=
  .readThenOps (back := []) (q₁ := q.withRead (readValue s .sw x) (.test k :: rest))
    ((List.append_nil (cwTexts ops)).symm ▸ hv _ (readState_withRead ..)) hcw fun q' sq' _ _ hq' => hk q' sq' hq'

/-- A command whose first status read makes its computation raise `e`. -/
theorem runs_readThenRaises {e : ProtocolError}
    (hv : ∀ q : Sequencer, readState s.params q = stateShown s x → verdict s.params q k = .raise e)
    (hb : s.bus = .ok x :: more) :
    Runs 1 (.act (.read .sw) :: .test k :: rest) { Sequencer.fresh with bind := none } s
      (failed s more s.timer [readEvent s .sw x] (protocolCode e) s.res s.ctrl) :=
  .start hb (GoesOn.readThenTest (r := some e) ⟨rfl, rfl⟩ (hv _ (readState_withRead ..)))

end

/-! ## The computations on the state first read (R152, R187) -/

/-- The computations that follow a rule's first status read. -/
def firstReadTests : List Test := [.currentStateResult, .enableState, .disableState, .shutdownState, .quickStopState]

theorem verdict_of_unknown {p : Params} {q : Sequencer} {k : Test} (hk : k ∈ firstReadTests)
    (h : readState p q = none) : verdict p q k = .raise .unknownState := by
  simp only [firstReadTests, List.mem_cons, List.not_mem_nil, or_false] at hk
  rcases hk with rfl | rfl | rfl | rfl | rfl
  · simp [verdict, currentStateResultVerdict, h]
  · simp [verdict, enableStateVerdict, h]
  · simp [verdict, disableStateVerdict, h]
  · simp [verdict, shutdownStateVerdict, h]
  · simp [verdict, quickStopStateVerdict, h]

theorem verdict_of_notReady {p : Params} {q : Sequencer} {k : Test} (hk : k ∈ [Test.disableState, .shutdownState])
    (h : readState p q = some .notReadyToSwitchOn) : verdict p q k = .raise .notReadyToSwitchOn := by
  simp only [List.mem_cons, List.not_mem_nil, or_false] at hk
  rcases hk with rfl | rfl
  · simp [verdict, disableStateVerdict, h]
  · simp [verdict, shutdownStateVerdict, h]

/-! ## CURRENT_STATE (R170) -/

theorem verdict_currentStateResult_of_known {p : Params} {q : Sequencer} {st : PowerState}
    (h : readState p q = some st) :
    verdict p q .currentStateResult = .pass (q.stageResult 0 (powerStateCode st)) := by
  simp [verdict, currentStateResultVerdict, h]

theorem runs_currentState {s : State} {x : DWord} {more : List Answer} (hb : s.bus = .ok x :: more) :
    Runs 1 currentStateText { Sequencer.fresh with bind := none } s
      (match stateShown s x with
        | some p => succeeded s more s.timer [readEvent s .sw x] (s.res.set 0 (powerStateCode p)) s.ctrl
        | none => failed s more s.timer [readEvent s .sw x] 0x11 s.res s.ctrl) := by
  cases hst : stateShown s x with
  | none => exact runs_readThenRaises (fun q hq => verdict_of_unknown (by decide) (hq.trans hst)) hb
  | some p => exact .start hb (.read (.pass (verdict_currentStateResult_of_known hst) .ends))

/-- Settles O19: the one read, and the computation of the result from the state shown. -/
theorem currentStateReports : Obligations.CurrentStateReports := by
  refine ⟨fun _ => rfl, fun s more hi => ⟨fun x hb => ?_, fun e hb => ?_⟩⟩
  · exact Runs.exec rfl rfl hi (gateCheck_any _) (runs_currentState hb)
  · obtain ⟨u, hu, hrun⟩ := Runs.exec (i := .currentState) rfl rfl hi (gateCheck_any _) (.start hb .readFails)
    cases hrun
    exact hu

/-! ## DISABLE_OPERATION (R178, R179) -/

theorem disableState_putsIn {p : Params} {q : Sequencer} {st : PowerState} {ops : List CwOp}
    (hst : readState p q = some st) (hops : disableOps st = some ops) :
    (verdict p q .disableState).PutsIn (cwTexts ops) q := by
  rcases disableStateVerdict_of hst hops with ⟨rfl, hv⟩ | ⟨op, ops, rfl, hv⟩
  · rw [hv]; exact .nothing q
  · rw [hv]; exact .statements ..

theorem verdict_disableRecheck (p : Params) (q : Sequencer) :
    verdict p q .disableRecheck = endVerdict q (rereadEnd .couldNotDisable (readState p q)) := by
  simp only [verdict, disableRecheckVerdict]
  cases readState p q with
  | none => rfl
  | some st => cases st <;> rfl

/-- The disable step with either end; `DisableRun.runs_ok` is its success. -/
theorem DisableRun.runs {s : State} {b more : List Answer} {es es₀ : List Event} {r : Option ProtocolError}
    (h : DisableRun s b es r) {n tl : Nat} {rest : List Stmt} {q : Sequencer} {t : State} {sq : Option Sequencer}
    (hk : GoesOn s more tl (es₀ ++ es) q rest n t r) :
    Runs (b.length + n) (disableText ++ rest) q (mid s (b ++ more) tl es₀ sq) t := by
  cases h with
  | unknown x hx =>
    obtain ⟨rfl, rfl⟩ := hk
    exact .read (.raises (verdict_of_unknown (by decide) hx))
  | notReady x hx =>
    obtain ⟨rfl, rfl⟩ := hk
    exact .read (.raises (verdict_of_notReady (by decide) hx))
  | reread x z p ops b es hp hops hcw =>
    have hlen : (Answer.ok x :: (b ++ [.ok z])).length + n = b.length + (n + 1) + 1 := by simp; omega
    rw [hlen, List.cons_append, List.append_assoc]
    refine .readThenOnlyOps (fun q hq => disableState_putsIn (hq.trans hp) hops) hcw fun q' sq' hq' => ?_
    refine GoesOn.readThenTest (r := rereadEnd .couldNotDisable (stateShown s z)) ?_ (verdict_disableRecheck _ _)
    simpa using hk.of_keeps hq'

/-- Settles O29: the disable step as the whole text. -/
theorem disableOperationRuns : Obligations.DisableOperationRuns := fun _ _ _ _ _ hi hrun hb =>
  Runs.exec rfl rfl hi (gateCheck_any _) (.start hb (hrun.runs (rest := []) (goesOn_ended rfl rfl)))

/-- The events of the micro-ops `ops` whose accesses are answered with `xs`. -/
def cwRunEvents (s : State) : List CwOp → List DWord → List Event
  | op :: ops, x :: _ :: xs => cwEvents s op x ++ cwRunEvents s ops xs
  | _, _ => []

/-- Any two successful answers for each make a run of the micro-ops. -/
theorem cwRun_answers {s : State} {ops : List CwOp} {xs : List DWord} (hops : .clearAll ∉ ops)
    (hlen : xs.length = 2 * ops.length) : CwRun s ops (answers xs) (cwRunEvents s ops xs) := by
  induction ops generalizing xs with
  | nil =>
    obtain rfl := List.length_eq_zero_iff.1 hlen
    exact .nil
  | cons op ops ih =>
    obtain ⟨hop, hops⟩ := List.ne_and_not_mem_of_not_mem_cons hops
    match xs, hlen with
    | x :: y :: xs, hlen =>
      exact .cons op ops x y _ _ hop.symm (ih hops (by simp only [List.length_cons] at hlen; omega))

theorem eq_notReady_of_disableOps {p : PowerState} (h : disableOps p = none) : p = .notReadyToSwitchOn := by
  cases p with
  | notReadyToSwitchOn => rfl
  | _ => cases h

theorem disableOps_spec {p : PowerState} {ops : List CwOp} (h : disableOps p = some ops) :
    .clearAll ∉ ops ∧ ops.length ≤ 2 := by
  cases p <;> cases h <;> decide

/-- Six successful answers, whatever they are, hold a run of the disable step. -/
theorem exists_disableRun (s : State) (x : DWord) {xs : List DWord} (hxs : xs.length = 5) :
    ∃ b c es r, answers (x :: xs) = b ++ c ∧ b.length ≤ 6 ∧ DisableRun s b es r := by
  cases hp : stateShown s x with
  | none => exact ⟨_, answers xs, _, _, rfl, by simp, .unknown x hp⟩
  | some p =>
    cases hops : disableOps p with
    | none =>
      exact ⟨_, answers xs, _, _, rfl, by simp, .notReady x (eq_notReady_of_disableOps hops ▸ hp)⟩
    | some ops =>
      obtain ⟨hne, hle⟩ := disableOps_spec hops
      have hlt : 2 * ops.length < xs.length := by omega
      have hcw := cwRun_answers (s := s) (xs := xs.take (2 * ops.length)) hne (by simp; omega)
      have hrun := DisableRun.reread x xs[2 * ops.length] p ops _ _ hp hops hcw
      refine ⟨_, answers (xs.drop (2 * ops.length + 1)), _, _, ?_, ?_, hrun⟩
      · have hsplit : xs.take (2 * ops.length) ++ xs[2 * ops.length] :: xs.drop (2 * ops.length + 1) = xs := by
          rw [List.getElem_cons_drop, List.take_append_drop]
        calc answers (x :: xs)
            = answers (x :: (xs.take (2 * ops.length) ++ xs[2 * ops.length] :: xs.drop (2 * ops.length + 1))) := by
              rw [hsplit]
          _ = _ := by
              simp only [answers, List.map_cons, List.map_append, List.append_assoc, List.cons_append,
                List.nil_append]
      · simp [answers]; omega

/-- Settles O30: the run that the answers hold, and its end. -/
theorem disableStepEnds : Obligations.DisableStepEnds := by
  intro s x0 x1 x2 x3 x4 x5 more hi hb
  obtain ⟨b, c, es, r, hbc, hlen, hrun⟩ := exists_disableRun s x0 (xs := [x1, x2, x3, x4, x5]) rfl
  have hb' : s.bus = b ++ (c ++ more) := by rw [hb, hbc, List.append_assoc]
  obtain ⟨u, hu, hend⟩ := disableOperationRuns s b (c ++ more) es r hi hrun hb'
  refine ⟨b.length, _, hlen, (runExec_succ hu).trans hend, ?_⟩
  rw [hb', List.drop_left]
  cases r <;> exact ⟨rfl, rfl, rfl⟩

/-! ## SHUTDOWN (R181, R182) -/

theorem shutdownState_putsIn {p : Params} {q : Sequencer} {st : PowerState} {ops : List CwOp}
    (hst : readState p q = some st) (hops : shutdownOps st = some ops) :
    (verdict p q .shutdownState).PutsIn (cwTexts ops) q := by
  simp only [verdict, shutdownStateVerdict, hst]
  cases st <;> cases hops <;> constructor

/-- Settles O43: the read, and the micro-ops or the error of the state read. -/
theorem shutdownRuns : Obligations.ShutdownRuns := by
  intro s x more hi
  refine ⟨fun p ops b es hp hops hcw hb => ?_, fun hx hb => ?_, fun hx hb => ?_⟩
  · refine Runs.exec rfl rfl hi (gateCheck_any _) (.start hb ?_)
    refine .readThenOnlyOps (n := 0) (fun q hq => shutdownState_putsIn (hq.trans hp) hops) hcw
      fun q' sq' ⟨_, hstaged, hbind⟩ => Runs.ends.to ?_
    simp [hstaged, hbind, Sequencer.fresh, commit]
  · exact Runs.exec rfl rfl hi (gateCheck_any _)
      (runs_readThenRaises (fun q hq => verdict_of_notReady (by decide) (hq.trans hx)) hb)
  · exact Runs.exec rfl rfl hi (gateCheck_any _)
      (runs_readThenRaises (fun q hq => verdict_of_unknown (by decide) (hq.trans hx)) hb)

/-! ## QUICK_STOP (R184) -/

theorem quickStopState_putsIn {p : Params} {q : Sequencer} {st : PowerState} (hst : readState p q = some st) :
    (verdict p q .quickStopState).PutsIn (cwTexts (quickStopOps st)) q := by
  simp only [verdict, quickStopStateVerdict, hst]
  cases st <;> constructor

theorem verdict_quickStopRecheck (p : Params) (q : Sequencer) :
    verdict p q .quickStopRecheck = endVerdict q (rereadEnd .quickStopFailed (readState p q)) := by
  simp only [verdict, quickStopRecheckVerdict]
  cases readState p q with
  | none => rfl
  | some st => cases st <;> rfl

/-- Settles O44: the read with its micro-op, and the re-read with its end. -/
theorem quickStopRuns : Obligations.QuickStopRuns := by
  intro s x z more hi
  refine ⟨fun p b es hp hcw hb => ?_, fun hx hb => ?_⟩
  · refine Runs.exec rfl rfl hi (gateCheck_any _) (.start hb ?_)
    refine .readThenOnlyOps (n := 1) (fun q hq => quickStopState_putsIn (hq.trans hp)) hcw
      fun q' sq' ⟨_, hstaged, hbind⟩ => ?_
    exact (goesOn_ended hstaged hbind).readThenTest (verdict_quickStopRecheck _ _)
  · exact Runs.exec rfl rfl hi (gateCheck_any _)
      (runs_readThenRaises (fun q hq => verdict_of_unknown (by decide) (hq.trans hx)) hb)

/-! ## What the body of the EnableOperation loop decides (R172, R173, R175) -/

section
variable {p : Params} {q : Sequencer} {st : PowerState}

theorem verdict_enableState_of_notReady (h : readState p q = some .notReadyToSwitchOn)
    (hprev : q.prev ≠ some .notReadyToSwitchOn) : verdict p q .enableState = .raise .notReadyToSwitchOn := by
  simp [verdict, enableStateVerdict, h, hprev]

theorem verdict_enableState_of_settled (h : readState p q = some .operationEnabled)
    (hprev : q.prev = some .operationEnabled) : verdict p q .enableState = .pass q := by
  simp [verdict, enableStateVerdict, h, hprev]

theorem verdict_enableState_of_stalled (h : readState p q = some st) (hprev : q.prev = some st) (hf : st ≠ .fault)
    (ho : st ≠ .operationEnabled) : verdict p q .enableState = endVerdict q p.enableStallResult := by
  simp only [verdict, enableStateVerdict, h, hprev, hf, ho, ne_eq, not_false_eq_true, and_self, if_true, if_false]
  cases p.enableStallResult <;> rfl

/-- A state other than Fault that the last read did not show: its micro-ops, and the loop's text again. -/
theorem enableState_putsIn_of_new {ops : List CwOp} (h : readState p q = some st) (hf : st ≠ .fault)
    (hprev : q.prev ≠ some st) (hops : enableOps st = some ops) :
    (verdict p q .enableState).PutsIn (cwTexts ops ++ enableText) { q with prev := some st } := by
  simp only [verdict, enableStateVerdict, h, hprev, false_and, if_false]
  cases st with
  | fault => exact absurd rfl hf
  | _ => cases hops <;> constructor

/-- Fault: the reset pulse, the count, and the loop's text again, whatever the last read showed. -/
theorem enableState_putsIn_of_fault (h : readState p q = some .fault) :
    (verdict p q .enableState).PutsIn
      (cwTexts [.faultResetLow, .faultResetHigh] ++ .test .enableCountFault :: enableText)
      { q with prev := some .fault } := by
  simp only [verdict, enableStateVerdict, h, ne_eq, not_true_eq_false, and_false, if_false]
  constructor

theorem verdict_enableCountFault_of_last (h : q.faults + 1 = p.faultResetRetries + 1) :
    verdict p q .enableCountFault = .raise .faultNotCleared :=
  if_pos h

theorem verdict_enableCountFault_of_more (h : q.faults + 1 ≠ p.faultResetRetries + 1) :
    verdict p q .enableCountFault = .pass { q with faults := q.faults + 1 } :=
  if_neg h

end

/-! ## ENABLE_OPERATION (R172) -/

section
variable {s t : State} {q : Sequencer} {n tl : Nat} {rest : List Stmt} {b more : List Answer} {es es₀ : List Event}
  {sq : Option Sequencer} {r : Option ProtocolError} {x : DWord}

/-- A turn of the loop that sees a new state other than Fault. -/
theorem Runs.enableTurn {p : PowerState} {ops : List CwOp} (hx : stateShown s x = some p) (hf : p ≠ .fault)
    (hprev : q.prev ≠ some p) (hops : enableOps p = some ops) (hcw : CwRun s ops b es)
    (hk : ∀ q' sq', q'.prev = some p → q'.faults = q.faults → Keeps q q' →
      Runs n (enableText ++ rest) q' (mid s more tl (es₀ ++ readEvent s .sw x :: es) sq') t) :
    Runs (b.length + n + 1) (enableText ++ rest) q (mid s (.ok x :: (b ++ more)) tl es₀ sq) t :=
  .readThenOps (enableState_putsIn_of_new hx hf hprev hops) hcw hk

/-- A turn of the loop that sees Fault, up to the count. -/
theorem Runs.enableFault (hx : stateShown s x = some .fault) (hcw : CwRun s [.faultResetLow, .faultResetHigh] b es)
    (hk : ∀ q' sq', q'.prev = some .fault → q'.faults = q.faults → Keeps q q' →
      Runs n (.test .enableCountFault :: (enableText ++ rest)) q'
        (mid s more tl (es₀ ++ readEvent s .sw x :: es) sq') t) :
    Runs (b.length + n + 1) (enableText ++ rest) q (mid s (.ok x :: (b ++ more)) tl es₀ sq) t :=
  .readThenOps (enableState_putsIn_of_fault hx) hcw hk

theorem length_turn_add (x : DWord) (b c : List Answer) (n : Nat) :
    (Answer.ok x :: (b ++ c)).length + n = b.length + (c.length + n) + 1 := by
  simp only [List.length_cons, List.length_append]; omega

/-- The EnableOperation loop, entered with any observation and fault count, with either end. -/
theorem EnableRun.runs {prev : Option PowerState} {faults : Nat} (h : EnableRun s prev faults b es r)
    (hprev : q.prev = prev) (hfaults : q.faults = faults) (hk : GoesOn s more tl (es₀ ++ es) q rest n t r) :
    Runs (b.length + n) (enableText ++ rest) q (mid s (b ++ more) tl es₀ sq) t := by
  induction h generalizing q es₀ sq with
  | unknown prev faults x hx =>
    rw [List.length_singleton, Nat.add_comm]
    exact hk.readThenTest (verdict_of_unknown (by decide) hx)
  | notReady prev faults x hx hne =>
    rw [List.length_singleton, Nat.add_comm]
    exact hk.readThenTest (verdict_enableState_of_notReady hx (hprev ▸ hne))
  | settled faults x hx =>
    rw [List.length_singleton, Nat.add_comm]
    exact hk.readThenTest (verdict_enableState_of_settled hx hprev)
  | stalled p faults x hx hf ho =>
    rw [List.length_singleton, Nat.add_comm]
    exact hk.readThenTest (verdict_enableState_of_stalled hx hprev hf ho)
  | thirdFault prev faults x b es hx hlast hcw =>
    rw [List.length_cons, Nat.add_right_comm]
    have hk' : GoesOn s more tl _ q (enableText ++ rest) n t (some .faultNotCleared) := hk
    refine .enableFault hx hcw fun q' sq' _ hfaults' hq' => (hk'.of_keeps hq').test ?_
    exact verdict_enableCountFault_of_last ((congrArg Nat.succ (hfaults'.trans hfaults)).trans hlast)
  | fault prev faults x b c es fs r hx hmore hcw _ ih =>
    rw [length_turn_add, List.cons_append, List.append_assoc]
    refine .enableFault hx hcw fun q' sq' hprev' hfaults' hq' => ?_
    have hcount : q'.faults + 1 = faults + 1 := congrArg Nat.succ (hfaults'.trans hfaults)
    refine .pass (verdict_enableCountFault_of_more (hcount.trans_ne hmore)) (ih hprev' hcount ?_)
    rw [List.append_assoc]
    exact hk.of_keeps hq'
  | turn prev faults x p ops b c es fs r hx hf hne hops hcw _ ih =>
    rw [length_turn_add, List.cons_append, List.append_assoc]
    refine .enableTurn hx hf (hprev ▸ hne) hops hcw fun q' sq' hprev' hfaults' hq' => ?_
    refine ih hprev' (hfaults'.trans hfaults) ?_
    rw [List.append_assoc]
    exact hk.of_keeps hq'

end

/-- Settles O39: the loop as the whole text, entered with no observation. -/
theorem enableOperationRuns : Obligations.EnableOperationRuns := fun _ _ _ _ _ hi hrun hb =>
  Runs.exec rfl rfl hi (gateCheck_any _) (.start hb (hrun.runs (rest := []) rfl rfl (goesOn_ended rfl rfl)))

/-! ## A drive that never leaves Fault (R173) -/

/-- The answers of the loop's turns, each a status read and the accesses of its micro-ops. -/
def turnAnswers (turns : List (DWord × List DWord)) : List Answer :=
  turns.flatMap fun q => .ok q.1 :: answers q.2

theorem turnAnswers_cons (q : DWord × List DWord) (turns : List (DWord × List DWord)) :
    turnAnswers (q :: turns) = .ok q.1 :: (answers q.2 ++ turnAnswers turns) := rfl

theorem turnAnswers_append (turns turns' : List (DWord × List DWord)) :
    turnAnswers (turns ++ turns') = turnAnswers turns ++ turnAnswers turns' := List.flatMap_append

theorem length_turnAnswers {m : Nat} {turns : List (DWord × List DWord)} (h : ∀ q ∈ turns, q.2.length = m) :
    (turnAnswers turns).length = (m + 1) * turns.length := by
  induction turns with
  | nil => rfl
  | cons q turns ih =>
    obtain ⟨hq, hturns⟩ := List.forall_mem_cons.1 h
    rw [turnAnswers_cons, List.length_cons, List.length_append, ih hturns, answers, List.length_map, hq,
      List.length_cons]
    ring

/-- The events of the loop's turns that each apply the micro-ops `ops`. -/
def turnEvents (s : State) (ops : List CwOp) (turns : List (DWord × List DWord)) : List Event :=
  turns.flatMap fun q => readEvent s .sw q.1 :: cwRunEvents s ops q.2

/-- The turns that are left until the fault count reaches its bound make a run that ends with FaultNotCleared. -/
theorem enableRun_of_faults {s : State} {prev : Option PowerState} {faults : Nat}
    {turns : List (DWord × List DWord)} (hne : turns ≠ [])
    (hturns : ∀ q ∈ turns, stateShown s q.1 = some .fault ∧ q.2.length = 4)
    (hlen : faults + turns.length = s.params.faultResetRetries + 1) :
    EnableRun s prev faults (turnAnswers turns) (turnEvents s [.faultResetLow, .faultResetHigh] turns)
      (some .faultNotCleared) := by
  induction turns generalizing prev faults with
  | nil => exact absurd rfl hne
  | cons q turns ih =>
    obtain ⟨⟨hx, hxs⟩, hturns⟩ := List.forall_mem_cons.1 hturns
    have hcw : CwRun s [.faultResetLow, .faultResetHigh] (answers q.2) _ := cwRun_answers (by decide) hxs
    rw [List.length_cons] at hlen
    by_cases hlast : turns = []
    · subst hlast
      simpa [turnAnswers, turnEvents] using EnableRun.thirdFault prev faults q.1 _ _ hx hlen hcw
    · have hpos := List.length_pos_iff.2 hlast
      exact .fault prev faults q.1 _ _ _ _ _ hx (by omega) hcw (ih hlast hturns (by omega))

/-- A turn with a reset pulse: its status read, and the two accesses of each of its two micro-ops. -/
def pulseTurn (q : DWord × DWord × DWord × DWord × DWord) : DWord × List DWord :=
  (q.1, [q.2.1, q.2.2.1, q.2.2.2.1, q.2.2.2.2])

/-- Settles O41: the run of the turns that show Fault, from no observation. -/
theorem faultResetRetries : Obligations.FaultResetRetries := by
  intro s more turns hi hturns hlen hb
  have hfour : ∀ q ∈ turns.map pulseTurn, q.2.length = 4 := List.forall_mem_map.2 fun _ _ => rfl
  have hfault : ∀ q ∈ turns.map pulseTurn, stateShown s q.1 = some .fault := List.forall_mem_map.2 hturns
  have hlen' : (turns.map pulseTurn).length = s.params.faultResetRetries + 1 := (List.length_map _).trans hlen
  have hrun := enableRun_of_faults (prev := none) (faults := 0)
    (List.length_pos_iff.1 (hlen' ▸ Nat.succ_pos _)) (fun q hq => ⟨hfault q hq, hfour q hq⟩)
    ((Nat.zero_add _).trans hlen')
  have hsteps : (turnAnswers (turns.map pulseTurn)).length = 5 * turns.length := by
    rw [length_turnAnswers hfour, List.length_map]
  rw [← hsteps]
  have hb' : s.bus = turnAnswers (turns.map pulseTurn) ++ more := by rw [hb, turnAnswers, List.flatMap_map]; rfl
  have hes : turnEvents s [.faultResetLow, .faultResetHigh] (turns.map pulseTurn) = turns.flatMap fun q =>
      readEvent s .sw q.1 :: (cwEvents s .faultResetLow q.2.1 ++ cwEvents s .faultResetHigh q.2.2.2.1) := by
    rw [turnEvents, List.flatMap_map]; rfl
  rw [← hes]
  exact enableOperationRuns s _ more _ _ hi hrun hb'

/-! ## A drive whose status word stays constant (R174, R175) -/

theorem enableOps_of_ne_notReady {p : PowerState} (h : p ≠ .notReadyToSwitchOn) : ∃ ops, enableOps p = some ops := by
  cases p with
  | notReadyToSwitchOn => exact absurd rfl h
  | _ => exact ⟨_, rfl⟩

theorem enableOps_spec {p : PowerState} {ops : List CwOp} (h : enableOps p = some ops) :
    .clearAll ∉ ops ∧ ops.length ≤ 2 := by
  cases p <;> cases h <;> decide

theorem enableEndAt_of_stall {s : State} {p : PowerState} (hf : p ≠ .fault) (hn : p ≠ .notReadyToSwitchOn)
    (ho : p ≠ .operationEnabled) : enableEndAt s (some p) = s.params.enableStallResult := by
  cases p with
  | fault => exact absurd rfl hf
  | notReadyToSwitchOn => exact absurd rfl hn
  | operationEnabled => exact absurd rfl ho
  | _ => rfl

/-- The second read of the same state is the loop's last. -/
theorem enableRun_of_repeated {s : State} {p : PowerState} {faults : Nat} {x : DWord} (hx : stateShown s x = some p)
    (hf : p ≠ .fault) (hn : p ≠ .notReadyToSwitchOn) :
    EnableRun s (some p) faults [.ok x] [readEvent s .sw x] (enableEndAt s (some p)) := by
  by_cases ho : p = .operationEnabled
  · subst ho
    exact .settled faults x hx
  · exact enableEndAt_of_stall hf hn ho ▸ .stalled p faults x hx hf ho

/-- The micro-op accesses of one turn of the loop at the state `st`. -/
def turnAccesses (st : Option PowerState) : Nat := 2 * ((st.bind enableOps).getD []).length

theorem turnAccesses_le (st : Option PowerState) : turnAccesses st ≤ 4 := by
  cases st with
  | none => decide
  | some p => cases p <;> decide

section
variable {s : State} {prev : Option PowerState} {faults : Nat} {turns : List (DWord × List DWord)}

/-- The answers of `turns` begin with a run of the loop that ends with `r`. -/
def HoldsEnableRun (s : State) (prev : Option PowerState) (faults : Nat) (turns : List (DWord × List DWord))
    (r : Option ProtocolError) : Prop :=
  ∃ b c es, turnAnswers turns = b ++ c ∧ EnableRun s prev faults b es r

theorem holdsEnableRun_of_first {q : DWord × List DWord} {es : List Event} {r : Option ProtocolError}
    (h : EnableRun s prev faults [.ok q.1] es r) : HoldsEnableRun s prev faults (q :: turns) r :=
  ⟨_, answers q.2 ++ turnAnswers turns, _, rfl, h⟩

theorem holdsEnableRun_of_faults (hfaults : faults ≤ s.params.faultResetRetries)
    (hturns : ∀ q ∈ turns, stateShown s q.1 = some .fault ∧ q.2.length = 4)
    (hlen : turns.length = s.params.faultResetRetries + 2) :
    HoldsEnableRun s prev faults turns (some .faultNotCleared) := by
  have hleft : (turns.take (s.params.faultResetRetries + 1 - faults)).length =
      s.params.faultResetRetries + 1 - faults := by rw [List.length_take]; omega
  have hne : turns.take (s.params.faultResetRetries + 1 - faults) ≠ [] := List.length_pos_iff.1 (by omega)
  refine ⟨_, turnAnswers (turns.drop (s.params.faultResetRetries + 1 - faults)), _, ?_,
    enableRun_of_faults hne (fun q hq => hturns q (List.mem_of_mem_take hq)) (by omega)⟩
  rw [← turnAnswers_append, List.take_append_drop]

/-- A state whose second read in a row is the last: the loop ends with the first or the second turn. -/
theorem holdsEnableRun_of_steady {p : PowerState} {q₁ q₂ : DWord × List DWord} (hf : p ≠ .fault)
    (hn : p ≠ .notReadyToSwitchOn) (hx₁ : stateShown s q₁.1 = some p) (hx₂ : stateShown s q₂.1 = some p)
    (hacc : q₁.2.length = turnAccesses (some p)) :
    HoldsEnableRun s prev faults (q₁ :: q₂ :: turns) (enableEndAt s (some p)) := by
  by_cases hprev : prev = some p
  · subst hprev
    exact holdsEnableRun_of_first (enableRun_of_repeated hx₁ hf hn)
  · obtain ⟨ops, hops⟩ := enableOps_of_ne_notReady hn
    have hlen : q₁.2.length = 2 * ops.length := by simpa [turnAccesses, hops] using hacc
    have hcw := cwRun_answers (s := s) (enableOps_spec hops).1 hlen
    exact ⟨_, answers q₂.2 ++ turnAnswers turns, _, by simp [turnAnswers_cons],
      .turn prev faults q₁.1 p ops _ _ _ _ _ hx₁ hf hprev hops hcw (enableRun_of_repeated hx₂ hf hn)⟩

/-- From the loop's head, with any observation and fault count, against a constant drive. -/
theorem holdsEnableRun_of_constant {st : Option PowerState} (hprev : prev ≠ some .notReadyToSwitchOn)
    (hfaults : faults ≤ s.params.faultResetRetries)
    (hturns : ∀ q ∈ turns, stateShown s q.1 = st ∧ q.2.length = turnAccesses st)
    (hlen : turns.length = s.params.faultResetRetries + 2) :
    HoldsEnableRun s prev faults turns (enableEndAt s st) := by
  match turns, hlen with
  | q₁ :: q₂ :: turns, hlen =>
    obtain ⟨⟨hx₁, hacc⟩, hturns'⟩ := List.forall_mem_cons.1 hturns
    obtain ⟨⟨hx₂, _⟩, _⟩ := List.forall_mem_cons.1 hturns'
    cases st with
    | none => exact holdsEnableRun_of_first (.unknown prev faults q₁.1 hx₁)
    | some p =>
      by_cases hf : p = .fault
      · subst hf
        exact holdsEnableRun_of_faults hfaults hturns hlen
      · by_cases hn : p = .notReadyToSwitchOn
        · subst hn
          exact holdsEnableRun_of_first (.notReady prev faults q₁.1 hx₁ hprev)
        · exact holdsEnableRun_of_steady hf hn hx₁ hx₂ hacc

end

/-- At the loop's head the next action is the loop's, with temporaries in their range. -/
theorem AtEnableLoop.exec {s : State} (h : AtEnableLoop s) :
    ∃ q, Machine.exec .enableOperation s = advance enableText q s ∧ q.prev ≠ some .notReadyToSwitchOn ∧
      q.faults ≤ s.params.faultResetRetries := by
  rcases h with ⟨_, hseq⟩ | ⟨q, hseq, hstep, hprev, hfaults⟩
  · exact ⟨{ Sequencer.fresh with bind := none }, runCommand_issued hseq (gateCheck_any _), by decide, Nat.zero_le _⟩
  · exact ⟨q, exec_before rfl hseq hstep, hprev, hfaults⟩

/-- A run from a state whose next action begins the text, as actions of the command. -/
theorem Runs.runExec {i : Instr} {f : Frame} {todo : List Stmt} {q : Sequencer} {n : Nat} {s t : State}
    (hc : encode i = .command f) (he : Machine.exec i s = advance todo q s) (h : Runs n todo q s t) :
    Machine.runExec i (n + 1) s = .next t := by
  obtain ⟨u, hu, hch⟩ := h
  exact (runExec_succ (he.trans hu)).trans (hch.runExec hc)

/-- Whatever the end of a rule that is the last of its command, the core is IDLE with the end's `STATUS`. -/
theorem exists_goesOn_end (s : State) (more : List Answer) (tl : Nat) (es : List Event) (q : Sequencer)
    (r : Option ProtocolError) : ∃ t, GoesOn s more tl es q [] 0 t r ∧ t.port = .idle ∧ t.seq = none ∧ t.bus = more ∧
      t.status = endStatus r := by
  cases r with
  | none =>
    refine ⟨succeeded s more tl es (commit q.staged s.res) (q.bind.getD s.ctrl), ?_, rfl, rfl, rfl, rfl⟩
    intro q' sq' ⟨_, hstaged, hbind⟩
    exact Runs.ends.to (by rw [hstaged, hbind])
  | some e => exact ⟨_, ⟨rfl, rfl⟩, rfl, rfl, rfl, rfl⟩

/-- Settles O40: the run that the constant turns hold, and its end. -/
theorem enableEndsOnAConstantDrive : Obligations.EnableEndsOnAConstantDrive := by
  intro s st turns more hloop hturns hlen hb
  obtain ⟨q, hexec, hprev, hfaults⟩ := hloop.exec
  obtain ⟨b, c, es, hbc, hrun⟩ := holdsEnableRun_of_constant hprev hfaults hturns hlen
  obtain ⟨t, hgo, hidle, hseq, hbus, hstatus⟩ := exists_goesOn_end s (c ++ more) s.timer es q (enableEndAt s st)
  have hb' : s.bus = b ++ (c ++ more) := by rw [hb, ← List.append_assoc, ← hbc]; rfl
  have hruns : Runs b.length enableText q s t := .start hb' (hrun.runs (n := 0) (rest := []) rfl rfl hgo)
  refine ⟨b.length, t, ?_, hruns.runExec rfl hexec, hidle, hseq, by rw [hbus, hb', List.drop_left], hstatus⟩
  calc b.length ≤ (turnAnswers turns).length := by rw [hbc, List.length_append]; exact Nat.le_add_right ..
    _ = (turnAccesses st + 1) * turns.length := length_turnAnswers fun q hq => (hturns q hq).2
    _ ≤ 5 * (s.params.faultResetRetries + 2) :=
      Nat.mul_le_mul (Nat.succ_le_succ (turnAccesses_le st)) hlen.le

/-! ## The enable hang (R174, R407) -/

theorem runExec_add {i : Instr} {m n : Nat} {s u : State} (h : Machine.runExec i m s = .next u) :
    Machine.runExec i (m + n) s = Machine.runExec i n u := by
  induction m generalizing s with
  | zero => rw [Nat.zero_add, ← Host.Outcome.next.inj h]
  | succ m ih =>
    obtain ⟨v, hv, hrest⟩ := runExec_succ_inv h
    rw [Nat.add_right_comm, runExec_succ hv, ih hrest]

/-- The write of a micro-op, with the command under way after it. -/
theorem Runs.untilCwWrite {op : CwOp} {rest : List Stmt} {q : Sequencer} {s : State} {y : DWord} {b : List Answer}
    {tl : Nat} {es : List Event} {sq : Option Sequencer} :
    Runs 0 (.act (.cwWrite op) :: rest) q (mid s (.ok y :: b) tl es sq)
      (mid s b tl (es ++ [writeEvent s .cw ((cwWord op (word16 q.v)).setWidth 32)])
        (some { q with step := .before rest })) :=
  ⟨_, by simp [perform, memWrite, afterWrite, mid, writeEvent], .refl _⟩

/-- The command is BUSY at the head of its loop, and the last read showed `prev`. -/
def BusyInLoop (prev : Option PowerState) (s : State) : Prop :=
  s.port = .busy ∧ s.seq.isSome = true ∧ ∃ q, Machine.exec .enableOperation s = advance enableText q s ∧ q.prev = prev

theorem Issued.busyInLoop {s : State} (h : Issued s) : BusyInLoop none s :=
  ⟨h.1, by rw [h.2]; rfl, _, runCommand_issued h.2 (gateCheck_any _), rfl⟩

/-- A turn that sees a new state with one micro-op makes three accesses and is back at the loop's head. -/
theorem BusyInLoop.turn {s : State} {prev : Option PowerState} {p : PowerState} {op : CwOp} {x c w : DWord}
    {more : List Answer} (h : BusyInLoop prev s) (hx : stateShown s x = some p) (hf : p ≠ .fault)
    (hprev : prev ≠ some p) (hops : enableOps p = some [op]) (hb : s.bus = answers [x, c, w] ++ more) :
    ∃ t, Machine.runExec .enableOperation 3 s = .next t ∧ BusyInLoop (some p) t ∧ t.bus = more ∧
      t.trace.length = s.trace.length + 3 ∧ stateShown t = stateShown s := by
  obtain ⟨hport, hseq, q, hexec, rfl⟩ := h
  have hruns : Runs 2 enableText q s _ := .start hb
    (.read (.putIn (rest := []) (enableState_putsIn_of_new hx hf hprev hops) (.cwRead .untilCwWrite)))
  exact ⟨_, hruns.runExec rfl hexec, ⟨hport, rfl, _, exec_before rfl rfl rfl, rfl⟩, rfl, by simp [mid], rfl⟩

/-- Any number of turns that show SwitchedOnDisabled and ReadyToSwitchOn alternately leave the command in its loop. -/
theorem BusyInLoop.oscillates {x y c w : DWord} {more : List Answer} (n : Nat) {prev : Option PowerState} {s : State}
    (h : BusyInLoop prev s) (hprev : prev ≠ some .switchedOnDisabled)
    (hx : stateShown s x = some .switchedOnDisabled) (hy : stateShown s y = some .readyToSwitchOn)
    (hb : s.bus = (List.replicate n (answers [x, c, w, y, c, w])).flatten ++ more) :
    ∃ t, Machine.runExec .enableOperation (6 * n) s = .next t ∧ t.port = .busy ∧ t.seq.isSome = true ∧ t.bus = more ∧
      t.trace.length = s.trace.length + 6 * n := by
  induction n generalizing prev s with
  | zero =>
    obtain ⟨hport, hseq, _⟩ := h
    exact ⟨s, rfl, hport, hseq, by simpa using hb, rfl⟩
  | succ n ih =>
    rw [List.replicate_succ, List.flatten_cons, List.append_assoc] at hb
    obtain ⟨u, hu, hloop, hbu, htr, hshown⟩ := h.turn hx (by decide) hprev rfl hb
    obtain ⟨v, hv, hloop', hbv, htr', hshown'⟩ := hloop.turn (hshown ▸ hy) (by decide) (by decide) rfl hbu
    have hshownv : stateShown v = stateShown s := hshown'.trans hshown
    obtain ⟨t, ht, hport, hseq, hbt, htr''⟩ := ih hloop' (by decide) (hshownv ▸ hx) (hshownv ▸ hy) hbv
    refine ⟨t, ?_, hport, hseq, hbt, by omega⟩
    rw [show 6 * (n + 1) = 3 + (3 + 6 * n) by omega, runExec_add hu, runExec_add hv, ht]

/-- Settles O42: the oscillation from the issue on. -/
theorem enableHangs : Obligations.EnableHangs := fun _ _ _ _ _ _ n hi hx hy hb =>
  hi.busyInLoop.oscillates n (by decide) hx hy hb

end Sys2Proof.Machine
end

section
/-! The statements of the motion-base family: the drive-mode word, the reads that report registers, HALT, the commands
that disable operation first, SET_MODE_OF_OPERATION and the controller binding. -/

namespace Sys2Proof.Machine

/-! ## The drive-mode word (R207 to R210) -/

/-- Setting bits outside `keep` leaves the bits of `keep`. -/
theorem or_and_keep {m keep : Word} (h : m &&& keep = 0) (r : Word) : (r ||| m) &&& keep = r &&& keep := by
  ext i hi
  have hbit : (m[i] && keep[i]) = false := by simpa using congrArg (·[i]) h
  simp only [BitVec.getElem_and, BitVec.getElem_or]
  rw [Bool.and_or_distrib_right, hbit, Bool.or_false]

/-- Clearing bits outside `keep` leaves the bits of `keep`. -/
theorem andNot_and_keep {m keep : Word} (h : m &&& keep = 0) (r : Word) : (r &&& ~~~m) &&& keep = r &&& keep := by
  ext i hi
  have hbit : (m[i] && keep[i]) = false := by simpa using congrArg (·[i]) h
  simp only [BitVec.getElem_and, BitVec.getElem_not]
  revert hbit
  cases m[i] <;> cases keep[i] <;> simp

/-- The default tags (R210). -/
def defaultTagBytes : List Byte := [0x00, 0x01, 0x08, 0x41]

theorem mem_defaultTagBytes {tag : Byte} :
    tag ∈ defaultTagBytes ↔ tag = 0x00 ∨ tag = 0x01 ∨ tag = 0x08 ∨ tag = 0x41 := by
  simp [defaultTagBytes]

theorem driveModeWord_default_of_unknown {tag : Byte} (h : tag ∉ defaultTagBytes) (r : Word) :
    driveModeWord defaultDriveModeTags tag r = none := by
  simp only [mem_defaultTagBytes, not_or] at h
  obtain ⟨hopen, hclosed, hreduced, hbldc⟩ := h
  simp only [driveModeWord, defaultDriveModeTags, hopen, hclosed, hreduced, hbldc, if_false]

theorem driveModeWord_default_eq_none_iff (tag : Byte) (r : Word) :
    driveModeWord defaultDriveModeTags tag r = none ↔ tag ∉ defaultTagBytes := by
  refine ⟨fun h hmem => ?_, fun h => driveModeWord_default_of_unknown h r⟩
  rcases mem_defaultTagBytes.1 hmem with rfl | rfl | rfl | rfl <;> exact Option.some_ne_none _ h

theorem driveModeTagOf_default_openLoop {r : Word} (h : r.getLsbD 0 = false) :
    driveModeTagOf defaultDriveModeTags r = if r.getLsbD 3 = true then 0x08 else 0x00 := by
  rw [driveModeTagOf, if_pos h]
  rfl

theorem driveModeTagOf_default_closedLoop {r : Word} (h : r.getLsbD 0 = true) :
    driveModeTagOf defaultDriveModeTags r = if r.getLsbD 6 = true then 0x41 else 0x01 := by
  rw [driveModeTagOf, if_neg (Bool.not_eq_false _ ▸ h)]
  rfl

/-- The word of a default tag is read back as the tag, and keeps the bits that are not the drive mode's: bits 0, 3
and 6 of the word are the tag's, and the masks that set and clear them touch no other bit. -/
theorem driveModeWord_default_roundTrip {tag : Byte} {r r' : Word}
    (h : driveModeWord defaultDriveModeTags tag r = some r') :
    driveModeTagOf defaultDriveModeTags r' = tag ∧ r' &&& ~~~0x00000049 = r &&& ~~~0x00000049 := by
  have hmem : tag ∈ defaultTagBytes := by
    by_contra hne
    simp [driveModeWord_default_of_unknown hne] at h
  rcases mem_defaultTagBytes.1 hmem with rfl | rfl | rfl | rfl
  · obtain rfl : r &&& ~~~0x00000049 = r' := Option.some.inj h
    exact ⟨by rw [driveModeTagOf_default_openLoop (by simp)]; simp, andNot_and_keep (by decide) r⟩
  · obtain rfl : (r ||| 0x00000001) &&& ~~~0x00000040 = r' := Option.some.inj h
    exact ⟨by rw [driveModeTagOf_default_closedLoop (by simp)]; simp,
      (andNot_and_keep (by decide) _).trans (or_and_keep (by decide) r)⟩
  · obtain rfl : (r &&& ~~~0x00000041) ||| 0x00000008 = r' := Option.some.inj h
    exact ⟨by rw [driveModeTagOf_default_openLoop (by simp)]; simp,
      (or_and_keep (by decide) _).trans (andNot_and_keep (by decide) r)⟩
  · obtain rfl : r ||| 0x00000041 = r' := Option.some.inj h
    exact ⟨by rw [driveModeTagOf_default_closedLoop (by simp)]; simp, or_and_keep (by decide) r⟩

/-- Settles O10: the words by evaluation, the round trip and the unknown tags by their lemmas. -/
theorem driveModeRoundTrip : Obligations.DriveModeRoundTrip :=
  ⟨fun _ => rfl, fun _ => rfl, fun _ => rfl, fun _ => rfl, fun _ _ _ => driveModeWord_default_roundTrip,
    driveModeWord_default_eq_none_iff⟩

/-! ## A command whose text begins with a read -/

/-- A command whose first action is a read ends by its failure. -/
theorem exec_readFails {i : Instr} {g : Gate} {bind : Option Ctrl} {r : RegName} {rest : List Stmt} {s : State}
    {e : Word} {more : List Answer} (he : exec i s = runCommand g bind (.act (.read r) :: rest) s) (hi : Issued s)
    (hg : gateCheck g s.ctrl = .allowed) (hb : s.bus = .error e :: more) :
    exec i s = .next (failed s more s.timer [readFailedEvent s r] 0x01 (s.res.set 0 e)
      (if bind.isSome then .unbound else s.ctrl)) := by
  rw [he, runCommand_issued hi.2 hg, advance_act, perform, memRead_error hb]
  rfl

/-- One read whose computation stages a result. -/
theorem runs_readResult {r : RegName} {k : Test} {j : Fin 6} {z : Word} {s : State} {x : DWord} {more : List Answer}
    (hv : ∀ q : Sequencer, q.v = readValue s r x → verdict s.params q k = .pass (q.stageResult j z))
    (hb : s.bus = .ok x :: more) :
    Runs 1 [.act (.read r), .test k] { Sequencer.fresh with bind := none } s
      (succeeded s more s.timer [readEvent s r x] (s.res.set j z) s.ctrl) :=
  .start hb (.read (.pass (hv _ rfl) .ends))

theorem verdict_modeResult (p : Params) (q : Sequencer) :
    verdict p q .modeResult = .pass (q.stageResult 0 ((q.v.setWidth 8).signExtend 32)) := rfl

theorem verdict_stage (p : Params) (q : Sequencer) (k : Fin 6) :
    verdict p q (.stage k) = .pass (q.stageResult k q.v) := rfl

theorem verdict_driveModeResult (p : Params) (q : Sequencer) :
    verdict p q .driveModeResult = .pass (q.stageResult 5 ((driveModeTagOf p.driveModeTags q.v).setWidth 32)) := rfl

/-- Settles O20: the one read and the extension of its byte, and the read's failure. -/
theorem getModeReports : Obligations.GetModeReports := by
  refine ⟨fun _ => rfl, rfl, fun s more hi => ⟨fun x hb => ?_, fun e hb => ?_⟩⟩
  · exact Runs.exec rfl rfl hi (gateCheck_any _)
      (runs_readResult (fun q hq => by rw [verdict_modeResult, hq]) hb)
  · exact exec_readFails (bind := none) rfl hi (gateCheck_any _) hb

/-! ## The actual values (R217 to R220) -/

/-- The four actual-value reads with their registers. -/
def actualValueRegisters : List (Instr × RegName) :=
  [(.getPositionActual, .posActual), (.getSpeedActual, .speedActual), (.getVelocityActual, .velActual),
    (.getVelocityDemanded, .velDemand)]

theorem exec_of_mem_actualValues {i : Instr} {r : RegName} (h : (i, r) ∈ actualValueRegisters) :
    (∃ f, encode i = .command f) ∧ (∀ s, exec i s = runCommand .any none (getValueText r) s) ∧
    (regParam defaultParams r).signed = true ∧ (regParam defaultParams r).width = .w32 := by
  simp only [actualValueRegisters, List.mem_cons, List.not_mem_nil, or_false, Prod.mk.injEq] at h
  rcases h with ⟨rfl, rfl⟩ | ⟨rfl, rfl⟩ | ⟨rfl, rfl⟩ | ⟨rfl, rfl⟩ <;> exact ⟨⟨_, rfl⟩, fun _ => rfl, rfl, rfl⟩

/-- Settles O21: the four commands have one text, on their own registers. -/
theorem actualValueReads : Obligations.ActualValueReads := by
  refine ⟨fun _ => ⟨rfl, rfl, rfl, rfl⟩, fun i r hmem => ?_⟩
  obtain ⟨⟨f, hc⟩, he, hsigned, hwidth⟩ := exec_of_mem_actualValues hmem
  refine ⟨hsigned, hwidth, fun s more hi => ⟨fun x hb => ?_, fun e hb => ?_⟩⟩
  · exact Runs.exec hc (he s) hi (gateCheck_any _) (runs_readResult (fun q hq => by rw [verdict_stage, hq]) hb)
  · exact exec_readFails (bind := none) (he s) hi (gateCheck_any _) hb

/-! ## GET_MOTOR_PARAMETERS (R209) -/

theorem runs_getMotorParameters {s : State} {x0 x1 x2 x3 x4 x5 : DWord} {more : List Answer}
    (hb : s.bus = answers [x0, x1, x2, x3, x4, x5] ++ more) :
    Runs 6 getMotorParametersText { Sequencer.fresh with bind := none } s
      (succeeded s more s.timer
        [readEvent s .polePairs x0, readEvent s .ratedCurrent x1, readEvent s .maxCurrent x2,
          readEvent s .maxCurrentDuration x3, readEvent s .idleCurrent x4, readEvent s .driveMode x5]
        ⟨readValue s .polePairs x0, readValue s .ratedCurrent x1, readValue s .maxCurrent x2,
          readValue s .maxCurrentDuration x3, readValue s .idleCurrent x4,
          (driveModeTagOf s.params.driveModeTags (readValue s .driveMode x5)).setWidth 32⟩ s.ctrl) :=
  .start hb <|
    .read <| .pass (verdict_stage _ _ 0) <| .read <| .pass (verdict_stage _ _ 1) <|
    .read <| .pass (verdict_stage _ _ 2) <| .read <| .pass (verdict_stage _ _ 3) <|
    .read <| .pass (verdict_stage _ _ 4) <| .read <| .pass (verdict_driveModeResult _ _) .ends

/-- Settles O22: the six reads, each staging its result. -/
theorem getMotorParametersReports : Obligations.GetMotorParametersReports := fun _ _ _ _ _ _ _ _ hi hb =>
  Runs.exec rfl rfl hi (gateCheck_any _) (runs_getMotorParameters hb)

/-! ## HALT by the base rule (R225, R226) -/

theorem haltable_modeOf_iff (v : Word) :
    haltable (modeOf v) = true ↔ (v.setWidth 8).toInt ∈ ([1, 2, 3, 4, 7] : List Int) := by
  simp [haltable, modeOf, or_assoc]

theorem verdict_haltMode_of_haltable {p : Params} {q : Sequencer} (h : haltable (modeOf q.v) = true) :
    verdict p q .haltMode = .pass q :=
  if_pos h

theorem verdict_haltMode_of_not_haltable {p : Params} {q : Sequencer} (h : ¬ haltable (modeOf q.v) = true) :
    verdict p q .haltMode = .raise .invalidHaltMode :=
  if_neg h

/-- Under these controllers HALT is the base rule. -/
theorem exec_halt_base {s : State} (h : s.ctrl ∈ [Ctrl.unbound, .velocity, .autoSetup]) :
    exec .halt s = runCommand .held none (baseHaltText s.params) s ∧ gateCheck .held s.ctrl = .allowed := by
  simp only [List.mem_cons, List.not_mem_nil, or_false] at h
  rcases h with hctrl | hctrl | hctrl <;> simp [exec, execHalt, haltText, gateCheck, hctrl]

/-- Settles O46: the mode read, then the option's write and the halt bit, or the error. -/
theorem baseHaltRuns : Obligations.BaseHaltRuns := by
  intro s x more hi hctrl
  obtain ⟨he, hg⟩ := exec_halt_base hctrl
  refine ⟨fun y v z hmode hb => ?_, fun hmode hb => ?_⟩
  · exact Runs.exec rfl he hi hg (.start hb (.read (.pass
      (verdict_haltMode_of_haltable ((haltable_modeOf_iff _).2 hmode)) (.write (.cwRead (.cwWrite .ends))))))
  · exact Runs.exec rfl he hi hg (.start hb (.read (.raises
      (verdict_haltMode_of_not_haltable (mt (haltable_modeOf_iff _).1 hmode)))))

/-! ## UNBIND (R229) -/

/-- A success that stages nothing is the end `succeeded` describes, with no event. -/
theorem returnOk_eq_succeeded {q : Sequencer} (h : q.staged = []) (s : State) :
    returnOk q s = succeeded s s.bus s.timer [] s.res (q.bind.getD s.ctrl) := by
  simp [returnOk, succeeded, h, commit, statusOk]

/-- Settles O28: the empty text, with the binding that releases the controller. -/
theorem unbindReleases : Obligations.UnbindReleases :=
  ⟨fun _ => rfl, fun s hi => (exec_unbind_issued hi.2).trans (congrArg _ (returnOk_eq_succeeded rfl s))⟩

/-! ## The commands that disable operation first (R200, R358) -/

theorem gateCheck_of_gateOpen {opc : Byte} {c ctrl : Ctrl} (hf : familyNeeds opc = some (some c)) (hc : c.Held)
    (h : GateOpen opc ctrl) : gateCheck (.needs c) ctrl = .allowed := by
  rcases h with h | h
  · cases hf.symm.trans h
  · obtain rfl : c = ctrl := Option.some.inj (Option.some.inj (hf.symm.trans h))
    exact gateCheck_needs_self hc

/-- The text of a command that disables operation first, and that its gate lets it begin. -/
theorem exec_of_disablesFirst {i : Instr} {s : State} (hi : disablesFirst i = true) (ha : Admitted i s) :
    ∃ f g rest, encode i = .command f ∧ exec i s = runCommand g none (disableText ++ rest) s ∧
      gateCheck g s.ctrl = .allowed := by
  cases i with
  | disableOperation => exact ⟨_, .any, [], rfl, rfl, rfl⟩
  | setMotorParameters | saveGroup | setUserUnitsFeed => exact ⟨_, .any, _, rfl, rfl, rfl⟩
  | setUserUnitsPositioning | getUserUnitsPositioning =>
    exact ⟨_, .needs .profilePosition, _, rfl, rfl, gateCheck_of_gateOpen (by dsimp only; rfl) trivial ha.1⟩
  | setUserUnitsVelocity | getUserUnitsVelocity =>
    exact ⟨_, .needs .velocity, _, rfl, rfl, gateCheck_of_gateOpen (by dsimp only; rfl) trivial ha.1⟩
  | _ => cases hi

/-- Settles O31: the disable step's error ends the whole text. -/
theorem disableFailureEndsTheCommand : Obligations.DisableFailureEndsTheCommand := by
  intro i s b more es e hfirst ha hi hd hb
  obtain ⟨f, g, rest, hc, he, hg⟩ := exec_of_disablesFirst hfirst ha
  exact Runs.exec hc he hi hg (.start hb (hd.runs ⟨rfl, rfl⟩))

/-! ## SET_MOTOR_PARAMETERS (R207, R208) -/

theorem verdict_driveModeEdit_of_some {p : Params} {tag : Byte} {q : Sequencer} {w : Word}
    (h : driveModeWord p.driveModeTags tag q.v = some w) :
    verdict p q (.driveModeEdit tag) = .pass { q with v := w } := by
  simp [verdict, driveModeEditVerdict, h]

theorem verdict_driveModeEdit_of_none {p : Params} {tag : Byte} {q : Sequencer}
    (h : driveModeWord p.driveModeTags tag q.v = none) :
    verdict p q (.driveModeEdit tag) = .raise .unknownDriveMode := by
  simp [verdict, driveModeEditVerdict, h]

/-- SET_MOTOR_PARAMETERS up to the edit of the drive mode: the disable step, the five writes and the read. -/
theorem runs_setMotorParameters {pp rc mc mcd ic : Word} {dm : Byte} {s t : State} {b more : List Answer}
    {es : List Event} {y0 y1 y2 y3 y4 x : DWord} {n : Nat} (hd : DisableRun s b es none)
    (hb : s.bus = b ++ (answers [y0, y1, y2, y3, y4, x] ++ more))
    (hk : ∀ q sq, q.v = readValue s .driveMode x → q.staged = [] → q.bind = none →
      Runs n [.test (.driveModeEdit dm), .act (.writeWorking .driveMode)] q
        (mid s more s.timer (es ++ [writeEvent s .polePairs pp, writeEvent s .ratedCurrent rc,
          writeEvent s .maxCurrent mc, writeEvent s .maxCurrentDuration mcd, writeEvent s .idleCurrent ic,
          readEvent s .driveMode x]) sq) t) :
    Runs (b.length + (n + 6)) (setMotorParametersText pp rc mc mcd ic dm) { Sequencer.fresh with bind := none } s t := by
  refine .start hb (hd.runs_ok fun q sq ⟨_, hstaged, hbind⟩ => ?_)
  refine .write (.write (.write (.write (.write (.read ?_)))))
  simp only [List.nil_append, List.append_assoc, List.cons_append]
  exact hk _ _ rfl hstaged hbind

/-- Settles O34: the edit gives a word to write, or no word and the error. -/
theorem setMotorParametersRuns : Obligations.SetMotorParametersRuns := by
  intro pp rc mc mcd ic dm s b more es y0 y1 y2 y3 y4 x hi hd
  refine ⟨fun y5 w hb hw => ?_, fun hb hw => ?_⟩
  · refine Runs.exec rfl rfl hi (gateCheck_any _) (runs_setMotorParameters (n := 1) hd hb
      fun q sq hv hstaged hbind => ?_)
    refine .pass (verdict_driveModeEdit_of_some (hv ▸ hw)) (.writeWorking (Runs.ends.to ?_))
    simp [hstaged, hbind, commit]
  · refine Runs.exec rfl rfl hi (gateCheck_any _) (runs_setMotorParameters (n := 0) hd hb
      fun q sq hv _ hbind => ?_)
    refine (Runs.raises (verdict_driveModeEdit_of_none (hv ▸ hw))).to ?_
    simp [hbind, protocolCode]

/-! ## SET_USER_UNITS_FEED (R215) -/

/-- Settles O36: the two writes after the disable step. -/
theorem setFeedRuns : Obligations.SetFeedRuns := by
  intro num den s b more es y z hi hd hb
  refine Runs.exec rfl rfl hi (gateCheck_any _) (.start hb (hd.runs_ok fun q sq ⟨_, hstaged, hbind⟩ => ?_))
  refine .write (.write (Runs.ends.to ?_))
  simp [hstaged, hbind, Sequencer.fresh, commit]

/-! ## SetModeOfOperation (R204) -/

theorem verdict_modeDiffers_of_eq {p : Params} {q : Sequencer} {mode : Int} (h : (q.v.setWidth 8).toInt = mode) :
    verdict p q (.modeDiffers mode) = .pass q :=
  if_pos h

theorem modeDiffers_putsIn_of_ne {p : Params} {q : Sequencer} {mode : Int} (h : (q.v.setWidth 8).toInt ≠ mode) :
    (verdict p q (.modeDiffers mode)).PutsIn (disableText ++ [.act (.write .mode (BitVec.ofInt 32 mode))]) q := by
  rw [show verdict p q (.modeDiffers mode) = _ from if_neg h]
  exact .statements ..

section
variable {mode : Int} {bind : Option Ctrl} {s t : State} {x : DWord} {b more : List Answer} {es : List Event}
  {n : Nat} {r : Option ProtocolError}

/-- The drive has the mode. -/
theorem runs_setMode_of_eq (hmode : ((readValue s .mode x).setWidth 8).toInt = mode) (hb : s.bus = .ok x :: more) :
    Runs 1 (setModeText mode) { Sequencer.fresh with bind := bind } s
      (succeeded s more s.timer [readEvent s .mode x] s.res (bind.getD s.ctrl)) :=
  .start hb (.read (.pass (verdict_modeDiffers_of_eq hmode) .ends))

/-- The drive has another mode: the disable step, and after its success the write of the mode. -/
theorem runs_setMode_of_ne (hmode : ((readValue s .mode x).setWidth 8).toInt ≠ mode) (hd : DisableRun s b es r)
    (hb : s.bus = .ok x :: (b ++ more))
    (hk : GoesOn s more s.timer (readEvent s .mode x :: es) { Sequencer.fresh with bind := bind }
      [.act (.write .mode (BitVec.ofInt 32 mode))] n t r) :
    Runs (b.length + n + 1) (setModeText mode) { Sequencer.fresh with bind := bind } s t :=
  .start hb (.read (.putIn (modeDiffers_putsIn_of_ne hmode) (hd.runs (hk.of_keeps ⟨rfl, rfl, rfl⟩))))

/-- The disable step and the write of the mode. -/
theorem runs_setMode_writes {y : DWord} (hmode : ((readValue s .mode x).setWidth 8).toInt ≠ mode)
    (hd : DisableRun s b es none) (hb : s.bus = .ok x :: (b ++ .ok y :: more)) :
    Runs (b.length + 2) (setModeText mode) { Sequencer.fresh with bind := bind } s
      (succeeded s more s.timer (readEvent s .mode x :: (es ++ [writeEvent s .mode (BitVec.ofInt 32 mode)])) s.res
        (bind.getD s.ctrl)) := by
  refine runs_setMode_of_ne (n := 1) hmode hd hb fun q sq ⟨_, hstaged, hbind⟩ => .write (Runs.ends.to ?_)
  simp [hstaged, hbind, Sequencer.fresh, commit]

/-- The disable step and a write of the mode that fails. -/
theorem runs_setMode_writeFails {e : Word} (hmode : ((readValue s .mode x).setWidth 8).toInt ≠ mode)
    (hd : DisableRun s b es none) (hb : s.bus = .ok x :: (b ++ .error e :: more)) :
    Runs (b.length + 1) (setModeText mode) { Sequencer.fresh with bind := bind } s
      (failed s more s.timer (readEvent s .mode x :: (es ++ [writeFailedEvent s .mode (BitVec.ofInt 32 mode)])) 0x01
        (s.res.set 0 e) (if bind.isSome then .unbound else s.ctrl)) := by
  refine runs_setMode_of_ne (n := 0) hmode hd hb fun q sq ⟨_, _, hbind⟩ => Runs.writeFails.to ?_
  simp [hbind]

/-- A disable step that fails. -/
theorem runs_setMode_disableFails {e : ProtocolError} (hmode : ((readValue s .mode x).setWidth 8).toInt ≠ mode)
    (hd : DisableRun s b es (some e)) (hb : s.bus = .ok x :: (b ++ more)) :
    Runs (b.length + 1) (setModeText mode) { Sequencer.fresh with bind := bind } s
      (failed s more s.timer (readEvent s .mode x :: es) (protocolCode e) s.res
        (if bind.isSome then .unbound else s.ctrl)) :=
  runs_setMode_of_ne (n := 0) hmode hd hb ⟨rfl, rfl⟩

end

/-- Settles O32: the runs of SetModeOfOperation with no binding. -/
theorem setModeOfOperationRuns : Obligations.SetModeOfOperationRuns := by
  intro mode s x more hi
  refine ⟨fun hmode hb => ?_, fun hmode b es => ⟨fun y hd hb => ?_, fun e hd hb => ?_⟩⟩
  · exact Runs.exec rfl rfl hi (gateCheck_any _) (runs_setMode_of_eq hmode hb)
  · exact Runs.exec rfl rfl hi (gateCheck_any _) (runs_setMode_writes hmode hd hb)
  · exact Runs.exec rfl rfl hi (gateCheck_any _) (runs_setMode_disableFails hmode hd hb)

/-! ## How a command with a binding ends (R228, R355) -/

theorem protocolCode_ne_zero (e : ProtocolError) : protocolCode e ≠ 0x00 := by
  cases e <;> decide

/-- The end of a bind of `c`: `CTRL` is the controller after success, and unbound after any error. -/
def BindEnd (c : Ctrl) (t : State) : Prop := t.ctrl = if t.status = 0x00 then c else .unbound

section
variable {c : Ctrl} {q : Sequencer} (hq : q.bind = some c)
include hq

theorem returnOk_bindEnd (s : State) : BindEnd c (returnOk q s) := by
  simp [BindEnd, hq, statusOk]

theorem raise_bindEnd (e : Raise) (s : State) : BindEnd c (raise e q s) := by
  have hcode : raiseCode e ≠ 0x00 := by
    cases e with
    | ioError payload => simp [raiseCode, statusIoError]
    | protocol e => exact protocolCode_ne_zero e
  rw [BindEnd, raise_ctrl, raise_status, hq, if_neg hcode]
  rfl

end

/-- An action that ends its command is a failed access. -/
theorem perform_ends {a : Act} {rest : List Stmt} {q : Sequencer} {s t : State} (h : perform a rest q s = .next t)
    (hs : s.port = .busy) (ht : t.port = .idle) : ∃ e u, t = raise e q u := by
  cases a with
  | wait ms => rcases waitMs_cases h with ⟨_, rfl⟩ | ⟨_, _, rfl⟩ <;> simp [hs] at ht
  | read | cwRead =>
    rcases memRead_cases h with ⟨_, rfl⟩ | ⟨_, _, _, rfl⟩ | ⟨_, _, _, rfl⟩
    · simp [hs] at ht
    · simp [hs] at ht
    · exact ⟨_, _, rfl⟩
  | write | writeWorking | cwWrite =>
    rcases memWrite_cases h with ⟨_, rfl⟩ | ⟨_, _, _, rfl⟩ | ⟨_, _, _, rfl⟩
    · simp [hs] at ht
    · simp [hs] at ht
    · exact ⟨_, _, rfl⟩

theorem advance_bindEnd {todo : List Stmt} {q : Sequencer} {c : Ctrl} {s t : State} (hq : q.bind = some c)
    (h : advance todo q s = .next t) (hs : s.port = .busy) (ht : t.port = .idle) : BindEnd c t := by
  apply advance_elim_bind todo q h
  · rintro q' hb rfl; exact returnOk_bindEnd (hb.trans hq) s
  · rintro e q' hb rfl; exact raise_bindEnd (hb.trans hq) _ s
  · intro a rest q' hb hp
    obtain ⟨e, u, rfl⟩ := perform_ends hp hs ht
    exact raise_bindEnd (hb.trans hq) e u

/-! ## BIND_* (R228) -/

/-- The four binds with their controllers. -/
def binds : List (Instr × Ctrl) :=
  [(.bindHoming, .homing), (.bindProfilePosition, .profilePosition), (.bindVelocity, .velocity),
    (.bindAutoSetup, .autoSetup)]

theorem exec_of_mem_binds {i : Instr} {c : Ctrl} (h : (i, c) ∈ binds) :
    (∃ f, encode i = .command f) ∧
    ∀ s, exec i s = runCommand .any (some c) (setModeText (bindMode c)) s := by
  simp only [binds, List.mem_cons, List.not_mem_nil, or_false, Prod.mk.injEq] at h
  rcases h with ⟨rfl, rfl⟩ | ⟨rfl, rfl⟩ | ⟨rfl, rfl⟩ | ⟨rfl, rfl⟩ <;> exact ⟨⟨_, rfl⟩, fun _ => rfl⟩

/-- A bind of `c` is running: just issued, or under way with `c` as its binding. -/
def Binding (c : Ctrl) (s : State) : Prop :=
  s.port = .busy ∧ (s.seq = some .fresh ∨ ∃ q todo, s.seq = some q ∧ q.step = .before todo ∧ q.bind = some c)

/-- The next step of a running bind is a step of a text that carries the binding. -/
theorem Binding.exec_eq {i : Instr} {c : Ctrl} {s : State} (hmem : (i, c) ∈ binds) (h : Binding c s) :
    ∃ todo q, q.bind = some c ∧ exec i s = advance todo q s := by
  obtain ⟨⟨f, hc⟩, he⟩ := exec_of_mem_binds hmem
  obtain ⟨_, hs | ⟨q, todo, hq, hstep, hbind⟩⟩ := h
  · exact ⟨_, { Sequencer.fresh with bind := some c }, rfl, (he s).trans (runCommand_issued hs (gateCheck_any _))⟩
  · exact ⟨todo, q, hbind, exec_before hc hq hstep⟩

/-- A running bind that stays BUSY goes on as one. -/
theorem Binding.of_exec {i : Instr} {c : Ctrl} {s t : State} (hmem : (i, c) ∈ binds) (h : Binding c s)
    (ht : exec i s = .next t) (hbusy : t.port = .busy) : Binding c t := by
  obtain ⟨todo, q, hbind, he⟩ := h.exec_eq hmem
  rcases exec_busy ht hbusy with rfl | ⟨_, q', todo', hq', hstep⟩
  · exact h
  · refine ⟨hbusy, ?_⟩
    cases advance_progress (he ▸ ht) with
    | waits hts => subst hts; exact h.2
    | goesOn q₁ hq₁ hbind₁ =>
      obtain rfl := Option.some.inj (hq'.symm.trans hq₁)
      exact .inr ⟨q', todo', hq', hstep, hbind₁.trans hbind⟩
    | ends hseq => cases hseq.symm.trans hq'

theorem Binding.of_runExec {i : Instr} {c : Ctrl} {n : Nat} {s t : State} (hmem : (i, c) ∈ binds) (h : Binding c s)
    (ht : runExec i n s = .next t) (hbusy : t.port = .busy) : Binding c t := by
  induction n generalizing s with
  | zero => exact Host.Outcome.next.inj ht ▸ h
  | succ n ih =>
    obtain ⟨u, hu, hrest⟩ := runExec_succ_inv ht
    exact ih (h.of_exec hmem hu (busy_of_runExec_busy hrest hbusy)) hrest

/-- Wherever a bind ends, its binding decides `CTRL`. -/
theorem bindEnd_of_runExec {i : Instr} {c : Ctrl} {n : Nat} {s u t : State} (hmem : (i, c) ∈ binds) (hi : Issued s)
    (hu : runExec i n s = .next u) (hbusy : u.port = .busy) (ht : exec i u = .next t) (hidle : t.port = .idle) :
    BindEnd c t := by
  have hrunning : Binding c u := .of_runExec hmem ⟨hi.1, .inl hi.2⟩ hu hbusy
  obtain ⟨todo, q, hbind, he⟩ := hrunning.exec_eq hmem
  exact advance_bindEnd hbind (he ▸ ht) hbusy hidle

/-- A row of the four binds: the mode is the one that the controller forces. -/
theorem mem_binds_of_row {i : Instr} {c : Ctrl} {mode : Int}
    (h : (i, c, mode) ∈ [(Instr.bindHoming, Ctrl.homing, (6 : Int)), (.bindProfilePosition, .profilePosition, 1),
      (.bindVelocity, .velocity, 2), (.bindAutoSetup, .autoSetup, -2)]) : (i, c) ∈ binds ∧ mode = bindMode c := by
  simp only [List.mem_cons, List.not_mem_nil, or_false, Prod.mk.injEq] at h
  rcases h with ⟨rfl, rfl, rfl⟩ | ⟨rfl, rfl, rfl⟩ | ⟨rfl, rfl, rfl⟩ | ⟨rfl, rfl, rfl⟩ <;> exact ⟨by decide, rfl⟩

/-- Settles O33: `CTRL` at every end by the running bind's binding, and the runs of SetModeOfOperation with it. -/
theorem bindRuns : Obligations.BindRuns := by
  intro i c mode hrow
  obtain ⟨hmem, rfl⟩ := mem_binds_of_row hrow
  obtain ⟨⟨f, hc⟩, he⟩ := exec_of_mem_binds hmem
  refine ⟨fun n s u t => bindEnd_of_runExec hmem, fun s x more hi => ⟨fun hmode hb => ?_, fun hmode b es =>
    ⟨fun y hd hb => ?_, fun e hd hb => ?_, fun e hd hb => ?_⟩, fun e hb => ?_⟩⟩
  · exact Runs.exec hc (he s) hi (gateCheck_any _) (runs_setMode_of_eq hmode hb)
  · exact Runs.exec hc (he s) hi (gateCheck_any _) (runs_setMode_writes hmode hd hb)
  · exact Runs.exec hc (he s) hi (gateCheck_any _) (runs_setMode_disableFails hmode hd hb)
  · exact Runs.exec hc (he s) hi (gateCheck_any _) (runs_setMode_writeFails hmode hd hb)
  · exact exec_readFails (bind := some c) (he s) hi (gateCheck_any _) hb

end Sys2Proof.Machine
end

section
/-! The statements of the homing family: the homing state's report, the commands that write their operands as given,
the order of the homing speeds, HALT under Homing and ProfilePosition, and the start of a reference run. -/

namespace Sys2Proof.Machine

/-- A run that its first action ends is one step of its command. -/
theorem Runs.exec_eq {i : Instr} {g : Gate} {bind : Option Ctrl} {text : List Stmt} {s t : State}
    (he : Machine.exec i s = runCommand g bind text s) (hi : Issued s) (hg : gateCheck g s.ctrl = .allowed)
    (h : Runs 0 text { Sequencer.fresh with bind := bind } s t) : Machine.exec i s = .next t := by
  obtain ⟨u, hu, ⟨⟩⟩ := h
  rw [he, runCommand_issued hi.2 hg, hu]

theorem gateCheck_of_ctrl {c : Ctrl} {s : State} (hc : c.Held) (h : s.ctrl = c) :
    gateCheck (.needs c) s.ctrl = .allowed := by
  rw [h, gateCheck_needs_self hc]

/-! ## GET_HOMING_STATE (R251) -/

theorem verdict_homingResult_of_some {p : Params} {q : Sequencer} {h : HomingState}
    (hd : decodeHoming (word16 q.v) = some h) :
    verdict p q .homingResult = .pass (q.stageResult 0 (homingStateCode h)) := by
  simp only [verdict, homingResultVerdict, hd]

theorem verdict_homingResult_of_none {p : Params} {q : Sequencer} (hd : decodeHoming (word16 q.v) = none) :
    verdict p q .homingResult = .raise .unknownHomingState := by
  simp only [verdict, homingResultVerdict, hd]

/-- Settles O24: the one status read decodes to a homing state, whose code is staged, or to none; and its failure. -/
theorem getHomingStateReports : Obligations.GetHomingStateReports := by
  refine ⟨fun _ => rfl, fun s more hi hctrl => ?_⟩
  have hg := gateCheck_of_ctrl (c := .homing) trivial hctrl
  refine ⟨fun x hb => ?_, fun e hb => exec_readFails (bind := none) rfl hi hg hb⟩
  cases hd : decodeHoming (statusWord s x) with
  | some h =>
    exact Runs.exec rfl rfl hi hg (runs_readResult
      (fun q hq => verdict_homingResult_of_some (by rw [hq]; exact hd)) hb)
  | none =>
    refine Runs.exec rfl rfl hi hg (.start hb (.read (.raises (e := .unknownHomingState) ?_)))
    exact verdict_homingResult_of_none hd

/-! ## The commands that write one register (R243, R244, R273, R274, R300) -/

/-- The five commands with their registers, the words they write and their controllers. -/
def singleWrites (v : Int) (a : Word) : List (Instr × RegName × Word × Ctrl) :=
  [(.setHomingMode v, .homingMethod, BitVec.ofInt 32 v, .homing),
    (.setHomingAcceleration a, .homingAccel, a, .homing),
    (.setProfileVelocity a, .profileVelocity, a, .profilePosition),
    (.setProfileAcceleration a, .profileAccel, a, .profilePosition),
    (.setTargetVelocity v, .targetVelocity, BitVec.ofInt 32 v, .velocity)]

theorem exec_of_mem_singleWrites {v : Int} {a : Word} {i : Instr} {r : RegName} {x : Word} {c : Ctrl}
    (h : (i, r, x, c) ∈ singleWrites v a) :
    (∃ f, encode i = .command f) ∧ (∀ s, exec i s = runCommand (.needs c) none [.act (.write r x)] s) ∧ c.Held := by
  simp only [singleWrites, List.mem_cons, List.not_mem_nil, or_false, Prod.mk.injEq] at h
  rcases h with ⟨rfl, rfl, rfl, rfl⟩ | ⟨rfl, rfl, rfl, rfl⟩ | ⟨rfl, rfl, rfl, rfl⟩ | ⟨rfl, rfl, rfl, rfl⟩ |
    ⟨rfl, rfl, rfl, rfl⟩ <;> exact ⟨⟨_, rfl⟩, fun _ => rfl, trivial⟩

/-- Settles O25: the five commands have one text, the write of their word to their register. -/
theorem singleRegisterWrites : Obligations.SingleRegisterWrites := by
  refine ⟨fun _ => ⟨rfl, rfl, rfl, rfl, rfl⟩, by decide, fun v a i r x c hmem s more hi hctrl => ?_⟩
  obtain ⟨⟨f, hc⟩, he, hheld⟩ := exec_of_mem_singleWrites hmem
  have hg := gateCheck_of_ctrl hheld hctrl
  refine ⟨fun y hb => ?_, fun e hb => ?_⟩
  · exact Runs.exec hc (he s) hi hg (.start hb (.write .ends))
  · exact Runs.exec_eq (bind := none) (he s) hi hg (.start hb .writeFails)

/-! ## The order of the homing speeds (R241) -/

theorem verdict_homingSpeedOrder_of_lt {p : Params} {q : Sequencer} {z sw : Word} (h : z.toNat < sw.toNat) :
    verdict p q (.homingSpeedOrder z sw) = .pass q :=
  if_pos (BitVec.lt_def.2 h)

theorem verdict_homingSpeedOrder_of_le {p : Params} {q : Sequencer} {z sw : Word} (h : sw.toNat ≤ z.toNat) :
    verdict p q (.homingSpeedOrder z sw) = .raise .invalidHomingSpeedOrder :=
  if_neg (BitVec.not_lt.2 (BitVec.le_def.2 h))

/-- A text that begins with the check of speeds in the wrong order ends before any access. -/
theorem runs_homingSpeedsOutOfOrder {z sw : Word} {rest : List Stmt} {s : State} (h : sw.toNat ≤ z.toNat) :
    Runs 0 (.test (.homingSpeedOrder z sw) :: rest) { Sequencer.fresh with bind := none } s
      (failed s s.bus s.timer [] 0x24 s.res s.ctrl) :=
  .start rfl (.raises (verdict_homingSpeedOrder_of_le h))

/-- Settles O27: the check, then the two writes, each of which may fail. -/
theorem setHomingSpeedOrder : Obligations.SetHomingSpeedOrder := by
  refine ⟨fun _ => rfl, by decide, fun z sw s more hi hctrl => ?_⟩
  have hg := gateCheck_of_ctrl (c := .homing) trivial hctrl
  refine ⟨fun hle => Runs.exec_eq (bind := none) rfl hi hg (runs_homingSpeedsOutOfOrder hle), fun hlt => ?_⟩
  have hpass {p : Params} {q : Sequencer} := verdict_homingSpeedOrder_of_lt (p := p) (q := q) hlt
  refine ⟨fun x y hb => ?_, fun e hb => ?_, fun x e hb => ?_⟩
  · exact Runs.exec rfl rfl hi hg (.start hb (.pass hpass (.write (.write .ends))))
  · exact Runs.exec_eq (bind := none) rfl hi hg (.start hb (.pass hpass .writeFails))
  · exact Runs.exec rfl rfl hi hg (.start hb (.pass hpass (.write .writeFails)))

/-! ## HALT under Homing and ProfilePosition (R253, R280) -/

section
variable {op : CwOp} {rest : List Stmt} {q : Sequencer} {s : State} {e : Word} {b : List Answer} {tl : Nat}
  {es : List Event} {sq : Option Sequencer}

/-- A control-word read that fails ends the run, as any read of the register does. -/
theorem Runs.cwReadFails : Runs 0 (.act (.cwRead op) :: rest) q (mid s (.error e :: b) tl es sq)
    (failed s b tl (es ++ [readFailedEvent s .cw]) 0x01 (s.res.set 0 e) (if q.bind.isSome then .unbound else s.ctrl)) :=
  Runs.readFails (r := .cw) (rest := rest)

/-- A control-word write that fails ends the run, as any write of the register does. -/
theorem Runs.cwWriteFails : Runs 0 (.act (.cwWrite op) :: rest) q (mid s (.error e :: b) tl es sq)
    (failed s b tl (es ++ [writeFailedEvent s .cw ((cwWord op (word16 q.v)).setWidth 32)]) 0x01 (s.res.set 0 e)
      (if q.bind.isSome then .unbound else s.ctrl)) :=
  Runs.writeFails (r := .cw) (rest := rest)

end

/-- Under these controllers HALT is one micro-op. -/
theorem exec_halt_microOp {c : Ctrl} {op : CwOp} {s : State}
    (h : (c, op) ∈ [(Ctrl.homing, CwOp.startClear), (.profilePosition, .haltSet)]) (hctrl : s.ctrl = c) :
    exec .halt s = runCommand .held none [.act (.cwRead op), .act (.cwWrite op)] s ∧
      gateCheck .held s.ctrl = .allowed := by
  simp only [List.mem_cons, List.not_mem_nil, or_false, Prod.mk.injEq] at h
  rcases h with ⟨rfl, rfl⟩ | ⟨rfl, rfl⟩ <;>
    simp [exec, execHalt, haltText, homingHaltText, positionHaltText, cwText, gateCheck, hctrl]

/-- Settles O45: the micro-op's read and write, each of which may fail. -/
theorem modeHalts : Obligations.ModeHalts := by
  intro c op hmem s more hi hctrl
  obtain ⟨he, hg⟩ := exec_halt_microOp hmem hctrl
  refine ⟨fun x y hb => ?_, fun e hb => ?_, fun x e hb => ?_⟩
  · exact Runs.exec rfl he hi hg (.start hb (.cwRead (.cwWrite .ends)))
  · exact Runs.exec_eq (bind := none) he hi hg (.start hb .cwReadFails)
  · exact Runs.exec rfl he hi hg (.start hb (.cwRead .cwWriteFails))

/-! ## START_HOMING and HOME (R246, R249) -/

theorem verdict_homingAbort_of_none {p : Params} {q : Sequencer} (hd : decodeHoming (word16 q.v) = none) :
    verdict p q .homingAbort = .raise .unknownHomingState := by
  simp only [verdict, homingAbortVerdict, hd]

/-- A run in flight is aborted by clearing the start bit; in every other homing state nothing is put in. -/
theorem homingAbort_putsIn {p : Params} {q : Sequencer} {h : HomingState} (hd : decodeHoming (word16 q.v) = some h) :
    (verdict p q .homingAbort).PutsIn (cwTexts (if h = .inProgress then [.startClear] else [])) q := by
  simp only [verdict, homingAbortVerdict, hd]
  cases h <;> constructor

theorem startHomingText_append (p : Params) (rest : List Stmt) : startHomingText p ++ rest =
    .act (.read .sw) :: .test .homingAbort :: .act (.write .lswOption p.lswOptRecordOnly) ::
      .act (.cwRead .startSet) :: .act (.cwWrite .startSet) :: (enableText ++ rest) := rfl

section
variable {s t : State} {q : Sequencer} {n tl : Nat} {rest : List Stmt} {b more : List Answer} {es es₀ : List Event}
  {sq : Option Sequencer} {r : Option ProtocolError} {x : DWord}

/-- After an error a run does not go on, whatever statements its text still held. -/
theorem GoesOn.afterError {rest' : List Stmt} {e : ProtocolError} (h : GoesOn s more tl es q rest n t (some e)) :
    GoesOn s more tl es q rest' n t (some e) :=
  h

/-- The status read of `StartHoming()` that shows a homing state, with the abort that the state calls for. -/
theorem Runs.abortHoming {h : HomingState} (hx : decodeHoming (word16 (readValue s .sw x)) = some h)
    (hcw : CwRun s (if h = .inProgress then [.startClear] else []) b es)
    (hk : ∀ q' sq', q'.prev = q.prev → q'.faults = q.faults → Keeps q q' →
      Runs n rest q' (mid s more tl (es₀ ++ readEvent s .sw x :: es) sq') t) :
    Runs (b.length + n + 1) (.act (.read .sw) :: .test .homingAbort :: rest) q
      (mid s (.ok x :: (b ++ more)) tl es₀ sq) t := by
  refine .readThenOps (back := []) (q₁ := q.withRead (readValue s .sw x) (.test .homingAbort :: rest)) ?_ hcw hk
  rw [List.append_nil]
  exact homingAbort_putsIn hx

/-- `StartHoming()` entered with no observation and no fault counted, with either end. -/
theorem StartHomingRun.runs (h : StartHomingRun s b es r) (hprev : q.prev = none) (hfaults : q.faults = 0)
    (hk : GoesOn s more tl (es₀ ++ es) q rest n t r) :
    Runs (b.length + n) (startHomingText s.params ++ rest) q (mid s (b ++ more) tl es₀ sq) t := by
  rw [startHomingText_append]
  cases h with
  | unknown x hx =>
    rw [List.length_singleton, Nat.add_comm]
    exact hk.afterError.readThenTest (verdict_homingAbort_of_none hx)
  | run x w c d h a b es fs r hx hcw hrun =>
    have hlen : (Answer.ok x :: (a ++ .ok w :: .ok c :: .ok d :: b)).length + n =
        a.length + (b.length + n + 3) + 1 := by
      simp only [List.length_cons, List.length_append]; omega
    simp only [hlen, List.cons_append, List.append_assoc]
    refine .abortHoming hx hcw fun q' sq' hprev' hfaults' hq' => ?_
    refine .write (.cwRead (.cwWrite (hrun.runs (hprev'.trans hprev) (hfaults'.trans hfaults) ?_)))
    simp only [cwEvents, List.append_assoc, List.cons_append, List.nil_append] at hk ⊢
    exact hk.of_keeps hq'

end

/-- Settles O47: `StartHoming()` as the whole text, and after the check of the speeds and the three writes. -/
theorem homingStarts : Obligations.HomingStarts := by
  intro s b more es r hi hctrl
  have hg := gateCheck_of_ctrl (c := .homing) trivial hctrl
  refine ⟨fun hrun hb => ?_, fun z sw x y w hlt hrun hb => ?_, fun z sw hle => ?_⟩
  · exact Runs.exec rfl rfl hi hg (.start hb (hrun.runs (rest := []) rfl rfl (goesOn_ended rfl rfl)))
  · exact Runs.exec rfl rfl hi hg (.start hb (.pass (verdict_homingSpeedOrder_of_lt hlt)
      (.write (.write (.write (hrun.runs (rest := []) rfl rfl (goesOn_ended rfl rfl)))))))
  · exact Runs.exec_eq (bind := none) rfl hi hg (runs_homingSpeedsOutOfOrder hle)

end Sys2Proof.Machine
end

section
/-! The statements that set a target position and that start a motion under ProfilePosition and Velocity. -/

namespace Sys2Proof.Machine

/-! ## SET_TARGET_POSITION (R165, R271) -/

/-- The target micro-op clears the start bit, and sets the relative bit or clears it too (R165). -/
theorem cwWord_ppTarget (rel : Bool) (v : HalfWord) :
    cwWord (ppTarget rel) v = if rel then (v ||| 0x0040) &&& ~~~0x0010 else v &&& ~~~0x0050 := by
  cases rel with
  | true => exact cwWord_of_ne_clearAll (op := .ppTargetRel) (by decide) v
  | false =>
    calc cwWord .ppTargetAbs v = (v ||| 0#16) &&& ~~~0x0050 := cwWord_of_ne_clearAll (by decide) v
      _ = v &&& ~~~0x0050 := by rw [BitVec.or_zero]

theorem cwText_ppTarget (rel : Bool) :
    cwText (ppTarget rel) = [.act (.cwRead (ppTarget rel)), .act (.cwWrite (ppTarget rel))] := by
  cases rel <;> rfl

theorem exec_setTargetPosition (value : Int) (rel : Bool) (s : State) :
    exec (.setTargetPosition value rel) s = runCommand (.needs .profilePosition) none
      [.act (.cwRead (ppTarget rel)), .act (.cwWrite (ppTarget rel)),
        .act (.write .lswOption s.params.lswOptQsSod), .act (.write .targetPosition (BitVec.ofInt 32 value))] s := by
  simp only [exec, execSetTargetPosition, setTargetPositionText, cwText_ppTarget, List.cons_append, List.nil_append]

/-- Settles O48: the micro-op's read and its one write, then the two register writes. -/
theorem setTargetPositionRuns : Obligations.SetTargetPositionRuns := by
  intro value rel s x y z w more hi hctrl hb
  rw [← cwWord_ppTarget]
  exact Runs.exec rfl (exec_setTargetPosition value rel s) hi (gateCheck_of_ctrl (c := .profilePosition) trivial hctrl)
    (.start hb (.cwRead (.cwWrite (.write (.write .ends)))))

/-! ## START_POSITIONING and START_VELOCITY (R275, R305) -/

/-- The common end of the two commands: the micro-op `op` that arms the motion, then the EnableOperation loop. -/
theorem EnableRun.runsAfterCw {s : State} {q : Sequencer} {op : CwOp} {x y : DWord} {b more : List Answer}
    {es es₀ : List Event} {r : Option ProtocolError} {tl : Nat} {sq : Option Sequencer}
    (hrun : EnableRun s none 0 b es r) (hprev : q.prev = none) (hfaults : q.faults = 0) (hstaged : q.staged = [])
    (hbind : q.bind = none) :
    Runs (b.length + 2) (.act (.cwRead op) :: .act (.cwWrite op) :: enableText) q
      (mid s (.ok x :: .ok y :: (b ++ more)) tl es₀ sq)
      (ended s more tl (es₀ ++ (cwEvents s op x ++ es)) s.res s.ctrl r) := by
  refine .cwRead (.cwWrite (hrun.runs (n := 0) (rest := []) hprev hfaults ?_))
  rw [List.append_assoc, List.append_assoc]
  exact goesOn_ended hstaged hbind

/-- Settles O49: the strobe before the loop, and the option's write and the halt bit's clear before the loop. -/
theorem motionStarts : Obligations.MotionStarts := by
  intro s w x y b more es r hi hrun
  refine ⟨fun hctrl hb => ?_, fun hctrl hb => ?_⟩
  · have hg := gateCheck_of_ctrl (c := .profilePosition) trivial hctrl
    exact Runs.exec rfl rfl hi hg (.start hb (hrun.runsAfterCw (op := .ppStart) rfl rfl rfl rfl))
  · have hg := gateCheck_of_ctrl (c := .velocity) trivial hctrl
    exact Runs.exec rfl rfl hi hg (.start hb (.write (hrun.runsAfterCw (op := .haltClear) rfl rfl rfl rfl)))

end Sys2Proof.Machine
end

section
/-! The statements of the velocity family that are left: the ramp commands, which read or write the pair deltaSpeed and
deltaTime. -/

namespace Sys2Proof.Machine

/-! ## The ramp reads (R302, R304) -/

/-- The two reading commands with the registers of deltaSpeed and deltaTime. -/
def rampReads : List (Instr × RegName × RegName) :=
  [(.getVelocityAcceleration, .velAccDs, .velAccDt), (.getVelocityDeceleration, .velDecDs, .velDecDt)]

theorem exec_of_mem_rampReads {i : Instr} {ds dt : RegName} (h : (i, ds, dt) ∈ rampReads) :
    (∃ f, encode i = .command f) ∧ ∀ s, exec i s = runCommand (.needs .velocity) none (getPairText ds dt) s := by
  simp only [rampReads, List.mem_cons, List.not_mem_nil, or_false, Prod.mk.injEq] at h
  rcases h with ⟨rfl, rfl, rfl⟩ | ⟨rfl, rfl, rfl⟩ <;> exact ⟨⟨_, rfl⟩, fun _ => rfl⟩

section
variable {s : State} {ds dt : RegName} {x : DWord} {e : Word} {more : List Answer}

/-- Both reads succeed: each stages its value, and the end commits the two. -/
theorem runs_getPair {y : DWord} (hb : s.bus = .ok x :: .ok y :: more) :
    Runs 2 (getPairText ds dt) { Sequencer.fresh with bind := none } s
      (succeeded s more s.timer [readEvent s ds x, readEvent s dt y]
        ((s.res.set 0 (readValue s ds x)).set 1 (readValue s dt y)) s.ctrl) :=
  .start hb (.read (.pass (verdict_stage _ _ 0) (.read (.pass (verdict_stage _ _ 1) .ends))))

/-- The second read fails: the value staged by the first is dropped. -/
theorem runs_getPair_secondFails (hb : s.bus = .ok x :: .error e :: more) :
    Runs 1 (getPairText ds dt) { Sequencer.fresh with bind := none } s
      (failed s more s.timer [readEvent s ds x, readFailedEvent s dt] 0x01 (s.res.set 0 e) s.ctrl) :=
  .start hb (.read (.pass (verdict_stage _ _ 0) .readFails))

end

/-- Settles O23: both commands have one text, on their own pair of registers; it succeeds, or its first or its second
read fails. -/
theorem velocityRampReads : Obligations.VelocityRampReads := by
  refine ⟨fun _ => ⟨rfl, rfl⟩, by decide, fun i ds dt hmem s more hi hctrl => ?_⟩
  obtain ⟨⟨f, hc⟩, he⟩ := exec_of_mem_rampReads hmem
  have hg := gateCheck_of_ctrl (c := .velocity) trivial hctrl
  refine ⟨fun x y hb => ?_, fun e hb => ?_, fun x e hb => ?_⟩
  · exact Runs.exec hc (he s) hi hg (runs_getPair hb)
  · exact exec_readFails (bind := none) (he s) hi hg hb
  · exact Runs.exec hc (he s) hi hg (runs_getPair_secondFails hb)

/-! ## The ramp writes (R301, R303) -/

/-- The two writing commands, with the operands `a` and `b`, and the registers of deltaSpeed and deltaTime. -/
def rampWrites (a b : Word) : List (Instr × RegName × RegName) :=
  [(.setVelocityAcceleration a b, .velAccDs, .velAccDt), (.setVelocityDeceleration a b, .velDecDs, .velDecDt)]

theorem exec_of_mem_rampWrites {a b : Word} {i : Instr} {ds dt : RegName} (h : (i, ds, dt) ∈ rampWrites a b) :
    (∃ f, encode i = .command f) ∧
      ∀ s, exec i s = runCommand (.needs .velocity) none [.act (.write ds a), .act (.write dt b)] s := by
  simp only [rampWrites, List.mem_cons, List.not_mem_nil, or_false, Prod.mk.injEq] at h
  rcases h with ⟨rfl, rfl, rfl⟩ | ⟨rfl, rfl, rfl⟩ <;> exact ⟨⟨_, rfl⟩, fun _ => rfl⟩

/-- Settles O26: both commands have one text, the write of deltaSpeed and the write of deltaTime, each of which may
fail. -/
theorem velocityRampWrites : Obligations.VelocityRampWrites := by
  refine ⟨fun _ => ⟨rfl, rfl⟩, by decide, fun a b i ds dt hmem s more hi hctrl => ?_⟩
  obtain ⟨⟨f, hc⟩, he⟩ := exec_of_mem_rampWrites hmem
  have hg := gateCheck_of_ctrl (c := .velocity) trivial hctrl
  refine ⟨fun y z hb => ?_, fun e hb => ?_, fun y e hb => ?_⟩
  · exact Runs.exec hc (he s) hi hg (.start hb (.write (.write .ends)))
  · exact Runs.exec_eq (bind := none) (he s) hi hg (.start hb .writeFails)
  · exact Runs.exec hc (he s) hi hg (.start hb (.write .writeFails))

end Sys2Proof.Machine
end

section
/-! The statement of the auto-setup family: the precondition, the EnableOperation loop, the start bit, and the poll of
the completion bit with the control word cleared on its success. -/

namespace Sys2Proof.Machine

/-! ## The precondition (R330) -/

theorem precondAllSet_iff (p : Params) (sw : HalfWord) : precondAllSet p sw = true ↔
    sw.getLsbD p.remoteBit = true ∧ sw.getLsbD p.qsBit = true ∧ sw.getLsbD p.rtsoBit = true := by
  simp [precondAllSet, and_assoc]

theorem precondViolated_iff_allSet {p : Params} (h : p.autoSetupPrecondSense = .failWhenAllSet) (sw : HalfWord) :
    precondViolated p sw = true ↔ precondAllSet p sw = true := by
  simp [precondViolated, h]

theorem precondViolated_iff_not_allSet {p : Params} (h : p.autoSetupPrecondSense = .failUnlessAllSet)
    (sw : HalfWord) : precondViolated p sw = true ↔ ¬ precondAllSet p sw = true := by
  simp [precondViolated, h]

theorem verdict_precondition_of_violated {p : Params} {q : Sequencer} (h : precondViolated p (word16 q.v) = true) :
    verdict p q .precondition = .raise .preconditionFailed :=
  if_pos h

theorem verdict_precondition_of_met {p : Params} {q : Sequencer} (h : precondViolated p (word16 q.v) = false) :
    verdict p q .precondition = .pass q :=
  if_neg (by simp [h])

/-! ## AUTO_SETUP_MOTOR_PARAMETERS (R330, R331) -/

section
variable {s t : State} {x c d : DWord} {b more : List Answer} {es : List Event} {xs : List DWord} {left n : Nat}

/-- A violated precondition ends the command at its one read. -/
theorem runs_autoSetup_violated (hx : precondViolated s.params (statusWord s x) = true) (hb : s.bus = .ok x :: more) :
    Runs 1 autoSetupText { Sequencer.fresh with bind := none } s
      (failed s more s.timer [readEvent s .sw x] 0x22 s.res s.ctrl) :=
  .start hb (GoesOn.readThenTest (r := some .preconditionFailed) ⟨rfl, rfl⟩ (verdict_precondition_of_violated hx))

/-- With the precondition met, the command makes the EnableOperation loop, with either end. -/
theorem runs_autoSetup_loop {r : Option ProtocolError} (hx : precondViolated s.params (statusWord s x) = false)
    (hrun : EnableRun s none 0 b es r) (hb : s.bus = .ok x :: (b ++ more))
    (hk : GoesOn s more s.timer (readEvent s .sw x :: es) { Sequencer.fresh with bind := none }
      (cwText .startSet ++ (pollText .autoSetup ++ cwText .clearAll)) n t r) :
    Runs (b.length + n + 1) autoSetupText { Sequencer.fresh with bind := none } s t :=
  .start hb (.read (.pass (verdict_precondition_of_met hx) (hrun.runs rfl rfl (hk.of_keeps ⟨rfl, rfl, rfl⟩))))

/-- The command up to the turn that ends its poll: the loop, the start bit, and the failing turns. -/
theorem runs_autoSetup_poll (hx : precondViolated s.params (statusWord s x) = false)
    (hrun : EnableRun s none 0 b es none) (hxs : NoneDone s .autoSetup xs)
    (hle : xs.length ≤ s.params.autoSetupPollMax) (htimer : s.timer = xs.length + left)
    (hb : s.bus = .ok x :: (b ++ .ok c :: .ok d :: (answers xs ++ more)))
    (hk : ∀ q sq, q.n = xs.length → q.staged = [] → q.bind = none →
      Runs n (pollText .autoSetup ++ cwText .clearAll) q
        (mid s more left (readEvent s .sw x :: (es ++ (cwEvents s .startSet c ++
          pollEvents s .sw s.params.autoSetupPollMs xs))) sq) t) :
    Runs (b.length + (2 * xs.length + n + 2) + 1) autoSetupText { Sequencer.fresh with bind := none } s t := by
  refine runs_autoSetup_loop hx hrun hb fun q₁ sq₁ ⟨hn₁, hst₁, hbind₁⟩ => .cwRead (.cwWrite ?_)
  have h₁ : q₁.n = 0 := hn₁
  rw [htimer]
  refine .pollTurns hxs (by simpa [h₁, pollMax] using hle) fun q₂ sq₂ ⟨hn₂, hst₂, hbind₂⟩ => ?_
  have hend := hk q₂ sq₂ (by simpa [h₁] using hn₂) (hst₂.trans hst₁) (hbind₂.trans hbind₁)
  simpa [cwEvents, cwWritten, pollReg, pollMs] using hend

end

/-- Settles O50: the precondition's two senses, and the command's ends at the precondition, in the loop, and by the
poll's read of bit 12 or its bound. -/
theorem autoSetupRuns : Obligations.AutoSetupRuns := by
  refine ⟨fun p sw => ⟨fun h => ?_, fun h => ?_⟩, fun s x b more es hi hctrl => ?_⟩
  · rw [precondViolated_iff_allSet h, precondAllSet_iff]
  · rw [precondViolated_iff_not_allSet h, precondAllSet_iff]
  have hg := gateCheck_of_ctrl (c := .autoSetup) trivial hctrl
  refine ⟨fun hx hb => Runs.exec rfl rfl hi hg (runs_autoSetup_violated hx hb), fun hx =>
    ⟨fun e hrun hb => Runs.exec rfl rfl hi hg (runs_autoSetup_loop (n := 0) hx hrun hb ⟨rfl, rfl⟩),
      fun c d xs left hrun hxs htimer => ⟨fun z w hz hlt hb => ?_, fun hlen hb => ?_⟩⟩⟩
  · refine Runs.exec rfl rfl hi hg (runs_autoSetup_poll (n := 2) hx hrun hxs hlt.le htimer hb
      fun q sq hn hstaged hbind => ?_)
    refine .pollSucceeds (hn.trans_lt hlt) hz fun q' sq' ⟨_, hstaged', hbind'⟩ => .cwWrite (Runs.ends.to ?_)
    simp [hstaged', hstaged, hbind', hbind, commit, pollReg, cwWord_clearAll]
  · refine Runs.exec rfl rfl hi hg (runs_autoSetup_poll (n := 0) hx hrun hxs hlen.le htimer hb
      fun q sq hn _ hbind => ?_)
    refine (Runs.pollTimesOut (k := .autoSetup) (hlen.symm.trans hn.symm).le).to ?_
    simp [hbind, pollTimeout, protocolCode]

end Sys2Proof.Machine
end
